-- ==== Sys2Proof/Word.lean ====
section
/-! DEFINITION. The word types of the command/response block (00_scope.md R9, R10; 30_encoding.md R66).
Every value is unsigned. -/

namespace Sys2Proof

/-- An 8-bit symbol or packet byte (R9). -/
abbrev Byte := BitVec 8

/-- A 32-bit operand word, result word or microsecond time (R9). -/
abbrev Word := BitVec 32

/-- A 6-bit code of the balanced-code table (R9). -/
abbrev Code := BitVec 6

/-- A command word: `OP = CW[103:96]`, `A = CW[95:64]`, `B = CW[63:32]`, `C = CW[31:0]` (R66). -/
abbrev CmdWord := BitVec 104

end Sys2Proof
end

