-- ==== Sys2Proof/Config.lean ====
section
/-! DEFINITION. The implementation parameters of 00_scope.md R8, and the free value `ANY` of R11 and
30_encoding.md R68. The constraints on the parameters are checked in WellFormed.lean. -/

namespace Sys2Proof

/-- What a mismatched half-bit pair keeps (00_scope.md R8 `P_MISMATCH_POLICY`, 44_bitstream_decoder.md R131). -/
inductive MismatchPolicy where
  | keepSecond
  | dropBoth
deriving DecidableEq, Repr

/-- The parameters of 00_scope.md R8, "fixed for the life of a block instance". They are numbers the
block compares with, so they are exact naturals here; R8's constraints bound them. -/
structure Params where
  /-- `P_ONE_MIN`, shortest interval classified `One`, µs. -/
  oneMin : Nat
  /-- `P_SPLIT`, shortest interval classified `Zero`, µs. -/
  split : Nat
  /-- `P_ZERO_MAX`, longest interval classified `Zero`, µs. -/
  zeroMax : Nat
  /-- `P_PREAMBLE_MIN`, one-bits required before a start bit. -/
  preambleMin : Nat
  /-- `P_PREAMBLE_CAP`, saturation value of the preamble counter. -/
  preambleCap : Nat
  /-- `P_MAX_LEN`, packet buffer capacity in bytes, checksum byte included. -/
  maxLen : Nat
  /-- `P_END_BIT_IN_PREAMBLE`. -/
  endBitInPreamble : Bool
  /-- `P_MISMATCH_POLICY`. -/
  mismatchPolicy : MismatchPolicy
  /-- `P_CH1_OFFSET`, standard channel 1 window opening offset, µs. -/
  ch1Offset : Nat
  /-- `P_CH2_OFFSET`, standard channel 2 window opening offset, µs. -/
  ch2Offset : Nat
deriving DecidableEq, Repr

/-- The defaults of 00_scope.md R8. PRESUMED (log entry 9): 52, 10000, 80 and 193 are the spec's own
general-knowledge values. -/
def Params.default : Params where
  oneMin := 52
  split := 80
  zeroMax := 10000
  preambleMin := 17
  preambleCap := 17
  maxLen := 6
  endBitInPreamble := false
  mismatchPolicy := .keepSecond
  ch1Offset := 80
  ch2Offset := 193

/-- `ANY` of 00_scope.md R11: "a value the model must treat as an unconstrained draw". The `n`-th draw is
`anyWord n`; nothing in Lean can evaluate it (log entry 3). -/
opaque Config.anyWord : Nat → Word

end Sys2Proof
end

