-- ==== Sys2Proof/Machine/State.lean ====
section
/-! DEFINITION. The state of the block: the sixteen elements of 10_state.md R22 to R37, the parameters of
00_scope.md R8, and the model's own fields for the block's three interfaces (30_encoding.md R65). -/

namespace Sys2Proof.Machine

/-- Why a step stops with a fault. There is no constructor: "The block has no trap, exception or interrupt
mechanism" and "no exception or fatal abort is ever appropriate" (60_exceptions.md R170). -/
inductive Fault where
deriving DecidableEq, Repr

/-- Why a step is refused. -/
inductive Refusal where
  /-- Raised by `exec` for a command that has no meaning yet; safe (no arm raises it). -/
  | notModelled (mnemonic : String)
  /-- Raised by `step` when the parameter set breaks a constraint of 00_scope.md R8; safe: "Such a set has
  no meaning" (93_implementation_defined.md I9: refuse). -/
  | badParameters
deriving DecidableEq, Repr

/-- The decoder state register's four values (10_state.md R22). -/
inductive DecState where
  | waitPreamble
  | waitStartBit
  | waitData
  | waitEndBit
deriving DecidableEq, Repr

/-- The class of a half-bit interval inside the recognised bands (10_state.md R29). -/
inductive HalfClass where
  | one
  | zero
deriving DecidableEq, Repr

/-- The three classes of a half-bit interval (44_bitstream_decoder.md R126). -/
inductive IntervalClass where
  | valid (c : HalfClass)
  | invalid
deriving DecidableEq, Repr

/-- The error causes of 60_exceptions.md R171. "No state element records a cause": a cause only labels a
transition. -/
inductive Cause where
  /-- E1 INVALID_INTERVAL. -/
  | e1
  /-- E2 HALFBIT_MISMATCH. -/
  | e2
  /-- E3 OVERFLOW. -/
  | e3
  /-- E4 CHECKSUM. -/
  | e4
  /-- E5 NOCODE. -/
  | e5
  /-- E6 ILLEGAL. -/
  | e6
deriving DecidableEq, Repr

/-- The status of a response (30_encoding.md R68). "Code 3 is never produced", so it has no constructor. -/
inductive Status where
  | ok
  | illegal
  | nocode
deriving DecidableEq, Repr

/-- A response (30_encoding.md R67). -/
structure Response where
  st : Status
  r0 : Word
  r1 : Word
  r2 : Word
  r3 : Word
deriving DecidableEq, Repr

/-- An indexed store of bytes: the packet buffer `buf` of 20_memory.md R49 (the block has no addressable memory,
R45). Indexes strictly rise and no listed byte is 0x00, which is what an unlisted index reads as (10_state.md
R33: "Reset value: every byte 0"). -/
abbrev Memory := List Host.Cell

/-- The mutable state of the block, all of it the bitstream decoder's (10_state.md R20). -/
structure Decoder where
  /-- `state`, R22. -/
  state : DecState
  /-- `pre_cnt`, R23: consecutive one-bits seen in `WaitPreamble`. -/
  preCnt : BitVec 8
  /-- `cur_pre`, R24: preamble length of the packet being assembled. -/
  curPre : BitVec 8
  /-- `primed`, R25. -/
  primed : Bool
  /-- `last_t`, R26: time of the previous EDGE. -/
  lastT : Word
  /-- `level`, R27: level sampled by the most recent EDGE. -/
  level : Bool
  /-- `half_pending`, R28. -/
  halfPending : Bool
  /-- `half_class`, R29. -/
  halfClass : HalfClass
  /-- `bit_cnt`, R30. -/
  bitCnt : BitVec 3
  /-- `cur_byte`, R31. -/
  curByte : Byte
  /-- `xor`, R32: the running exclusive-or. -/
  xorSum : Byte
  /-- `buf`, R33. -/
  buf : Memory
  /-- `len`, R34. -/
  len : BitVec 4
  /-- `ready`, R35. -/
  ready : Bool
  /-- `pkt_time`, R36. -/
  pktTime : Word
  /-- `pkt_pre`, R37. -/
  pktPre : BitVec 8
deriving DecidableEq, Repr

/-- The reset values of 10_state.md R43. -/
def Decoder.reset : Decoder where
  state := .waitPreamble
  preCnt := 0
  curPre := 0
  primed := false
  lastT := 0
  level := false
  halfPending := false
  halfClass := .zero
  bitCnt := 0
  curByte := 0
  xorSum := 0
  buf := []
  len := 0
  ready := false
  pktTime := 0
  pktPre := 0

/-- The three agents that present commands (20_memory.md R60). -/
inductive Agent where
  | edgeSource
  | consumer
  | encoderClient
deriving DecidableEq, Repr

/-- What the environment does next at the block's inputs (30_encoding.md R65): an agent presents the next
command of its stream on the command port, or the reset input `rst` is driven. -/
inductive PortEvent where
  | present (agent : Agent)
  | setRst (asserted : Bool)
deriving DecidableEq, Repr

/-- The state of the block and of its three interfaces. `dec` is the spec's; `params` is the instance's fixed
parameter set; every other field is the model's own (log entries 1 and 3 to 6). -/
structure State where
  /-- The decoder, all the mutable state the spec gives the block (10_state.md R20). -/
  dec : Decoder
  /-- The parameter set (00_scope.md R8). No step writes it. -/
  params : Params
  /-- The level of the reset input `rst` (70_reset_and_hazards.md R190). -/
  rst : Bool
  /-- The commands the edge source has still to present, oldest first. -/
  edgeStream : List CmdWord
  /-- The commands the consumer has still to present, oldest first. -/
  consumerStream : List CmdWord
  /-- The commands the encoder client has still to present, oldest first. -/
  clientStream : List CmdWord
  /-- The environment's events in order, the next first: the one total order of 20_memory.md R61. -/
  schedule : List PortEvent
  /-- The response port: the response to the command the last step accepted, if it accepted one. -/
  response : Option Response
  /-- How many `ANY` values have been drawn. -/
  draws : Nat
deriving DecidableEq, Repr

/-- The block with parameters `P` just after `rst` is released, nothing presented yet
(70_reset_and_hazards.md R190, R191). -/
def State.resetWith (P : Params) : State where
  dec := Decoder.reset
  params := P
  rst := false
  edgeStream := []
  consumerStream := []
  clientStream := []
  schedule := []
  response := none
  draws := 0

/-- The block after reset at the default parameters (log entry 1). -/
def State.reset : State := State.resetWith Params.default

end Sys2Proof.Machine
end

