-- ==== Sys2Proof/Machine/Operands.lean ====
section
/-! DEFINITION. How operands and results are formed: zero-extension (00_scope.md R10, 30_encoding.md R75,
R76), time differences (00_scope.md R10), the 6-bit groups of a payload (42_group_packer.md R95) and the
result words of READ_PACKET (44_bitstream_decoder.md R143). -/

namespace Sys2Proof.Machine

/-- `zext_32(v)` of 00_scope.md R10: a result field "placed at bit 0", the bits above it 0 (30_encoding.md
R76). -/
def zext32 {n : Nat} (v : BitVec n) : Word := v.setWidth 32

/-- `a -32 b` of 00_scope.md R10: `(a - b) mod 2^32`. -/
def sub32 (a b : Word) : Word := a - b

/-- A one-bit operand as a flag. -/
def bit (b : BitVec 1) : Bool := b.getLsbD 0

/-- The numeric encoding of `state` (10_state.md R22). -/
def DecState.code : DecState → BitVec 2
  | .waitPreamble => 0
  | .waitStartBit => 1
  | .waitData => 2
  | .waitEndBit => 3

/-- The numeric encoding of `half_class` (10_state.md R29). -/
def HalfClass.code : HalfClass → BitVec 1
  | .one => 1
  | .zero => 0

/-- Group `g[j]` of `pack_k(id, p)` (42_group_packer.md R95): `g[0] = (id << 2) | p[6k-5:6k-6]`, and
`g[j] = p[6(k-1-j)+5 : 6(k-1-j)]` after it. The payload is zero-extended to 32 bits. -/
def packGroup (k : Nat) (id : BitVec 4) (p : Word) (j : Nat) : Code :=
  if j = 0 then (id.setWidth 6 <<< 2) ||| (p.extractLsb' (6 * k - 6) 2).setWidth 6
  else p.extractLsb' (6 * (k - 1 - j)) 6

/-- Symbol `i` of a symbol string, counted from the lowest-order one: `S[8i+7 : 8i]` (42_group_packer.md R99). -/
def symbolAt (S : Word) (i : Nat) : Byte := S.extractLsb' (8 * i) 8

/-- Four bytes as one result word, byte 0 lowest (20_memory.md R52). -/
def wordOfBytes (b3 b2 b1 b0 : Byte) : Word := b3 ++ b2 ++ b1 ++ b0

/-- R0 of READ_PACKET (44_bitstream_decoder.md R143). -/
def packetStatusWord (d : Decoder) : Word :=
  zext32 d.len ||| (zext32 d.pktPre <<< 8) ||| (zext32 (BitVec.ofBool d.ready) <<< 16)
    ||| (zext32 d.state.code <<< 24) ||| (zext32 (BitVec.ofBool d.level) <<< 28)

end Sys2Proof.Machine
end

