-- ==== Sys2Proof/Machine/Ops.lean ====
section
/-! DEFINITION. The primitives of 00_scope.md R11: the packet buffer store, the balanced-code table, responses,
and the decoder's local recovery `discardPacket`, which is all that stands in this block for taking an exception
(60_exceptions.md R170, R178). -/

namespace Sys2Proof.Machine

/-! ## The indexed byte store (20_memory.md R49) -/

/-- What an index that lists no byte reads as (10_state.md R33: "Reset value: every byte 0"). -/
def unwritten : Byte := 0

/-- The canonical form: indexes strictly rise, and no listed byte equals `unwritten`. -/
def Memory.wf : Memory → Bool
  | [] => true
  | c :: m => decide (c.2 ≠ unwritten) && m.all (fun e => decide (c.1 < e.1)) && Memory.wf m

/-- The byte at an index. -/
def Memory.read : Memory → Nat → Byte
  | [], _ => unwritten
  | c :: m, i => if c.1 = i then c.2 else Memory.read m i

/-- A cell in front of a store, left out when it holds the unlisted value. -/
def Memory.put (i : Nat) (v : Byte) (m : Memory) : Memory :=
  if v = unwritten then m else (i, v) :: m

/-- The store with byte `i` set to `v`, in canonical form. -/
def Memory.write : Memory → Nat → Byte → Memory
  | [], i, v => Memory.put i v []
  | c :: m, i, v =>
    if i < c.1 then Memory.put i v (c :: m)
    else if i = c.1 then Memory.put i v m
    else c :: Memory.write m i v

/-- `BufRead(i)` (20_memory.md R49). -/
def bufRead (d : Decoder) (i : Nat) : Byte := Memory.read d.buf i

/-- `BufWrite(i, v)` (20_memory.md R49). -/
def bufWrite (i : Nat) (v : Byte) (d : Decoder) : Decoder := { d with buf := Memory.write d.buf i v }

/-! ## The balanced-code table (20_memory.md R46) -/

/-- The 64 entries of 20_memory.md R46 in order of code. PRESUMED (log entry 10): the spec marks 50 of them as
general knowledge. -/
def romTable : List Byte :=
  [0xAC, 0xAA, 0xA9, 0xA5, 0xA3, 0xA6, 0x9C, 0x9A] ++ [0x99, 0x95, 0x93, 0x96, 0x8E, 0x8D, 0x8B, 0xB1]
  ++ [0xB2, 0xB4, 0xB8, 0x74, 0x72, 0x6C, 0x6A, 0x69] ++ [0x65, 0x63, 0x66, 0x5C, 0x5A, 0x59, 0x55, 0x53]
  ++ [0x56, 0x4E, 0x4D, 0x4B, 0x47, 0x71, 0xE8, 0xE4] ++ [0xE2, 0xD1, 0xC9, 0xC5, 0xD8, 0xD4, 0xD2, 0xCA]
  ++ [0xC6, 0xCC, 0x78, 0x17, 0x1B, 0x1D, 0x1E, 0x2E] ++ [0x36, 0x3A, 0x27, 0x2B, 0x2D, 0x35, 0x39, 0x33]

/-- `ROM(c)` (20_memory.md R46). -/
def rom (c : Code) : Byte := romTable.getD c.toNat 0

/-- The position of a symbol in a table, counted from `n`. -/
def findSymbol : List Byte → Nat → Byte → Option Nat
  | [], _, _ => none
  | e :: es, n, sym => if e = sym then some n else findSymbol es (n + 1) sym

/-- The reverse search of 41_balanced_code.md R87: the code `c` with `ROM(c) = sym`, if there is one. -/
def romInverse (sym : Byte) : Option Code := (findSymbol romTable 0 sym).map (BitVec.ofNat 6)

/-! ## Responses (30_encoding.md R67, R68) -/

/-- `respond(st, r0, r1, r2, r3)` (00_scope.md R11). -/
def respond (st : Status) (r0 r1 r2 r3 : Word) (s : State) : State :=
  { s with response := some ⟨st, r0, r1, r2, r3⟩ }

/-- `respond(OK, r0, 0, 0, 0)`. -/
def respondOk (r0 : Word) (s : State) : State := respond .ok r0 0 0 0 s

/-- `respond(NOCODE, ANY, 0, 0, 0)` (30_encoding.md R68): the cause E5 of 60_exceptions.md R171. `ANY` is the
next free value (log entry 3). -/
def respondNoCode (s : State) : State :=
  { respond .nocode (Config.anyWord s.draws) 0 0 0 s with draws := s.draws + 1 }

/-- `respond(ILLEGAL, 0, 0, 0, 0)` (30_encoding.md R73): the cause E6 of 60_exceptions.md R171. -/
def respondIllegal (s : State) : State := respond .illegal 0 0 0 0 s

/-- The response of a lookup that may meet a byte that is no table entry (41_balanced_code.md R87,
42_group_packer.md R100 to R102). -/
def respondLookup (r : Option Word) (s : State) : State :=
  match r with
  | some v => respondOk v s
  | none => respondNoCode s

/-- The state with the decoder `d`. -/
def State.withDec (s : State) (d : Decoder) : State := { s with dec := d }

/-! ## Local recovery (44_bitstream_decoder.md R133) -/

/-- A decoder transition: the decoder after it, and the cause it is labelled with, if any (60_exceptions.md
R171, R172). -/
abbrev Transition := Decoder × Option Cause

/-- A transition that meets no error. -/
def quiet (d : Decoder) : Transition := (d, none)

/-- `discard(cause)` (44_bitstream_decoder.md R133): `state`, `pre_cnt` and `half_pending` are written, and nothing
else. -/
def discardPacket (cause : Cause) (d : Decoder) : Transition :=
  ({ d with state := .waitPreamble, preCnt := 0, halfPending := false }, some cause)

end Sys2Proof.Machine
end

