-- ==== Sys2Proof/Machine/BalancedCode.lean ====
section
/-! DEFINITION. The balanced-code table commands ENC6 and DEC8 (41_balanced_code.md R85 to R91). -/

namespace Sys2Proof.Machine

/-- ENC6 (41_balanced_code.md R86): `c <- v[5:0]; respond(OK, zext_32(ROM(c)), 0, 0, 0)`. -/
def execEnc6 (v : Byte) (s : State) : Host.Outcome State Fault Refusal :=
  .next (respondOk (zext32 (rom (v.extractLsb' 0 6))) s)

/-- The precomputed 256-entry inverse table of 41_balanced_code.md R90: "each table entry back to its code and every
other byte to no such code". Constant data (20_memory.md R64); DEC8 does not use it. -/
def inverseTable : List (Option Code) :=
  (List.range 64).foldl (fun t c => t.set (rom (BitVec.ofNat 6 c)).toNat (some (BitVec.ofNat 6 c)))
    (List.replicate 256 none)

/-- DEC8 (41_balanced_code.md R87). -/
def execDec8 (sym : Byte) (s : State) : Host.Outcome State Fault Refusal :=
  .next (respondLookup ((romInverse sym).map zext32) s)

end Sys2Proof.Machine
end

