-- ==== Sys2Proof/Machine/Flags.lean ====
section
/-! DEFINITION. The block's one flag, `ready` (10_state.md R35, R40), the checksum test that sets it
(44_bitstream_decoder.md R139, R148) and the status codes of a response (30_encoding.md R68). -/

namespace Sys2Proof.Machine

/-- The 2-bit code `ST` of a status (30_encoding.md R68). -/
def Status.code : Status → BitVec 2
  | .ok => 0
  | .illegal => 1
  | .nocode => 2

/-- The checksum validator: the running exclusive-or of all bytes, the checksum byte included, is zero
(44_bitstream_decoder.md R139, R148). -/
def checksumValid (d : Decoder) : Bool := d.xorSum == 0

/-- `s.ready <- 0` (44_bitstream_decoder.md R144, R145). -/
def clearReadyFlag (d : Decoder) : Decoder := { d with ready := false }

/-- What a packet that ends with a valid checksum records (44_bitstream_decoder.md R139): `ready`, `pkt_time`
and `pkt_pre`. -/
def publishPacket (now : Word) (d : Decoder) : Decoder :=
  { d with ready := true, pktTime := now, pktPre := d.curPre }

end Sys2Proof.Machine
end

