-- ==== Sys2Proof/Machine/BitstreamDecoder.lean ====
section
/-! DEFINITION. The bitstream decoder commands EDGE, READ_PACKET, READ_CLEAR and CLEAR_READY
(44_bitstream_decoder.md R125 to R150). -/

namespace Sys2Proof.Machine

/-- `classify(d)` (44_bitstream_decoder.md R126). -/
def classify (P : Params) (d : Word) : IntervalClass :=
  if P.oneMin ≤ d.toNat ∧ d.toNat < P.split then .valid .one
  else if P.split ≤ d.toNat ∧ d.toNat ≤ P.zeroMax then .valid .zero
  else .invalid

/-! ## The frame-sync and packet-assembly state machine -/

/-- A one-bit in `WaitPreamble` (44_bitstream_decoder.md R135):
`s.pre_cnt <- min(s.pre_cnt + 1, P_PREAMBLE_CAP)`. -/
def countPreamble (P : Params) (d : Decoder) : Decoder :=
  { d with preCnt := BitVec.ofNat 8 (min (d.preCnt.toNat + 1) P.preambleCap) }

/-- The start bit (44_bitstream_decoder.md R136): a fresh packet, its preamble length latched. -/
def startPacket (d : Decoder) : Decoder :=
  { d with
    curPre := d.preCnt
    preCnt := 0
    len := 0
    xorSum := 0
    curByte := 0
    bitCnt := 0
    state := .waitData }

/-- A zero-bit in `WaitPreamble` (44_bitstream_decoder.md R136). -/
def endPreamble (P : Params) (d : Decoder) : Decoder :=
  if P.preambleMin ≤ d.preCnt.toNat then startPacket d else { d with preCnt := 0 }

/-- `preamble_bit(b)` (44_bitstream_decoder.md R134 to R136). -/
def preambleBit (P : Params) (b : Bool) (d : Decoder) : Transition :=
  quiet (if b then countPreamble P d else endPreamble P d)

/-- `((s.cur_byte << 1) | b)[7:0]` (44_bitstream_decoder.md R137). -/
def shiftIn (b : Bool) (d : Decoder) : Byte := (d.curByte <<< 1) ||| (BitVec.ofBool b).setWidth 8

/-- A complete byte is stored (44_bitstream_decoder.md R137). -/
def storeByte (byte : Byte) (d : Decoder) : Decoder :=
  { bufWrite d.len.toNat byte d with
    len := d.len + 1
    xorSum := d.xorSum ^^^ byte
    curByte := 0
    bitCnt := 0
    state := .waitEndBit }

/-- `data_bit(b)` (44_bitstream_decoder.md R137). The buffer is full when it holds `P_MAX_LEN` bytes or more
(log entry 7: `len` never exceeds `P_MAX_LEN` by R42, and no byte is ever written beyond it by R50). -/
def dataBit (P : Params) (b : Bool) (d : Decoder) : Transition :=
  if d.bitCnt.toNat < 7 then quiet { d with curByte := shiftIn b d, bitCnt := d.bitCnt + 1 }
  else if P.maxLen ≤ d.len.toNat then discardPacket .e3 d
  else quiet (storeByte (shiftIn b d) d)

/-- A zero-bit in `WaitEndBit`: "more bytes follow" (44_bitstream_decoder.md R138). -/
def continuePacket (d : Decoder) : Decoder := { d with curByte := 0, bitCnt := 0, state := .waitData }

/-- The preamble count after the end bit (44_bitstream_decoder.md R139, R140). -/
def preCntAfterEndBit (P : Params) : BitVec 8 :=
  if P.endBitInPreamble then BitVec.ofNat 8 (min 1 P.preambleCap) else 0

/-- Back to `WaitPreamble` after the end bit (44_bitstream_decoder.md R139). -/
def leavePacket (P : Params) (d : Decoder) : Decoder :=
  { d with state := .waitPreamble, preCnt := preCntAfterEndBit P }

/-- A one-bit in `WaitEndBit` (44_bitstream_decoder.md R139): the packet is published if its checksum is valid, and
dropped with cause E4 if not. -/
def endPacket (P : Params) (now : Word) (d : Decoder) : Transition :=
  if checksumValid d then (leavePacket P (publishPacket now d), none)
  else (leavePacket P d, some .e4)

/-- `end_bit(b, now)` (44_bitstream_decoder.md R138, R139). -/
def endBit (P : Params) (b : Bool) (now : Word) (d : Decoder) : Transition :=
  if b then endPacket P now d else quiet (continuePacket d)

/-- `on_bit(b, now)` (44_bitstream_decoder.md R134; R141 for `WaitStartBit`). -/
def onBit (P : Params) (b : Bool) (now : Word) (d : Decoder) : Transition :=
  match d.state with
  | .waitPreamble => preambleBit P b d
  | .waitStartBit => preambleBit P b d
  | .waitData => dataBit P b d
  | .waitEndBit => endBit P b now d

/-! ## Half-bit pairing -/

/-- A half-bit waits for its partner (44_bitstream_decoder.md R130). -/
def holdHalf (c : HalfClass) (d : Decoder) : Decoder := { d with halfPending := true, halfClass := c }

/-- A second half of another class (44_bitstream_decoder.md R131). -/
def mismatch (P : Params) (c : HalfClass) (d : Decoder) : Transition :=
  match P.mismatchPolicy with
  | .keepSecond => (holdHalf c (discardPacket .e2 d).1, (discardPacket .e2 d).2)
  | .dropBoth => discardPacket .e2 d

/-- A second half of the same class completes a bit (44_bitstream_decoder.md R130). -/
def completeBit (P : Params) (c : HalfClass) (now : Word) (d : Decoder) : Transition :=
  onBit P (c == .one) now { d with halfPending := false }

/-- A classified half-bit of class `c` (44_bitstream_decoder.md R128, R130, R131). -/
def takeHalf (P : Params) (c : HalfClass) (now : Word) (d : Decoder) : Transition :=
  if d.halfPending = false then quiet (holdHalf c d)
  else if d.halfClass = c then completeBit P c now d
  else mismatch P c d

/-- What an interval does to the decoder (44_bitstream_decoder.md R128; R132 for `Invalid`). -/
def takeInterval (P : Params) (c : IntervalClass) (now : Word) (d : Decoder) : Transition :=
  match c with
  | .invalid => discardPacket .e1 d
  | .valid c => takeHalf P c now d

/-- The level and the time of an EDGE are recorded (44_bitstream_decoder.md R128, R147). -/
def recordEdge (now : Word) (lvl : Bool) (d : Decoder) : Decoder := { d with level := lvl, lastT := now }

/-- The decoder transition of EDGE (44_bitstream_decoder.md R128; R129 for the priming edge). -/
def edgeTransition (P : Params) (now : Word) (lvl : Bool) (d : Decoder) : Transition :=
  if d.primed then takeInterval P (classify P (sub32 now d.lastT)) now (recordEdge now lvl d)
  else quiet { recordEdge now lvl d with primed := true }

/-! ## Packet output -/

/-- `byte[i]` of READ_PACKET (44_bitstream_decoder.md R143, 20_memory.md R52): 0x00 at `i >= len` and at
`i >= P_MAX_LEN`. -/
def packetByte (P : Params) (d : Decoder) (i : Nat) : Byte :=
  if i < d.len.toNat ∧ i < P.maxLen then bufRead d i else 0

/-- The snapshot READ_PACKET and READ_CLEAR answer with (44_bitstream_decoder.md R143). -/
def respondPacket (s : State) : State :=
  let byte := packetByte s.params s.dec
  respond .ok (packetStatusWord s.dec) s.dec.pktTime
    (wordOfBytes (byte 3) (byte 2) (byte 1) (byte 0))
    (wordOfBytes (byte 7) (byte 6) (byte 5) (byte 4)) s

/-! ## The commands -/

/-- EDGE (44_bitstream_decoder.md R128). The cause label is not recorded (60_exceptions.md R172). -/
def execEdge (now : Word) (lvl : BitVec 1) (s : State) : Host.Outcome State Fault Refusal :=
  .next (respondOk 0 (s.withDec (edgeTransition s.params now (bit lvl) s.dec).1))

/-- READ_PACKET (44_bitstream_decoder.md R143). -/
def execReadPacket (s : State) : Host.Outcome State Fault Refusal := .next (respondPacket s)

/-- READ_CLEAR (44_bitstream_decoder.md R144): the response is the snapshot before the clear. -/
def execReadClear (s : State) : Host.Outcome State Fault Refusal :=
  .next ((respondPacket s).withDec (clearReadyFlag s.dec))

/-- CLEAR_READY (44_bitstream_decoder.md R145). -/
def execClearReady (s : State) : Host.Outcome State Fault Refusal :=
  .next (respondOk 0 (s.withDec (clearReadyFlag s.dec)))

end Sys2Proof.Machine
end

