-- ==== Sys2Proof/Machine/GroupPacker.lean ====
section
/-! DEFINITION. The group packer commands ENC12, ENC18, ENC24, DEC16, DEC24 and DEC32 (42_group_packer.md R95 to
R105). -/

namespace Sys2Proof.Machine

/-- `pack_k(id, p)` (42_group_packer.md R95): `ROM(g[0]) ++ ROM(g[1]) ++ ... ++ ROM(g[k-1])`, `g[0]` highest. -/
def packGroups (k : Nat) (id : BitVec 4) (p : Word) : Word :=
  (List.range k).foldl (fun w j => (w <<< 8) ||| zext32 (rom (packGroup k id p j))) 0

/-- `unpack_k(S)` (42_group_packer.md R99): symbol `i`'s code at bit offset `6i`; no value if any one of the `k`
symbols is not a table entry. -/
def unpackRaw : Nat → Word → Option Word
  | 0, _ => some 0
  | i + 1, S =>
    match unpackRaw i S, romInverse (symbolAt S i) with
    | some V, some c => some (V ||| (zext32 c <<< (6 * i)))
    | _, _ => none

/-- ENC12 (42_group_packer.md R96). -/
def execEnc12 (id : BitVec 4) (payload : BitVec 8) (s : State) : Host.Outcome State Fault Refusal :=
  .next (respondOk (packGroups 2 id (zext32 payload)) s)

/-- ENC18 (42_group_packer.md R97). -/
def execEnc18 (id : BitVec 4) (payload : BitVec 14) (s : State) : Host.Outcome State Fault Refusal :=
  .next (respondOk (packGroups 3 id (zext32 payload)) s)

/-- ENC24 (42_group_packer.md R98). -/
def execEnc24 (id : BitVec 4) (payload : BitVec 20) (s : State) : Host.Outcome State Fault Refusal :=
  .next (respondOk (packGroups 4 id (zext32 payload)) s)

/-- DEC16 (42_group_packer.md R100). -/
def execDec16 (syms : BitVec 16) (s : State) : Host.Outcome State Fault Refusal :=
  .next (respondLookup (unpackRaw 2 (zext32 syms)) s)

/-- DEC24 (42_group_packer.md R101). -/
def execDec24 (syms : BitVec 24) (s : State) : Host.Outcome State Fault Refusal :=
  .next (respondLookup (unpackRaw 3 (zext32 syms)) s)

/-- DEC32 (42_group_packer.md R102). -/
def execDec32 (syms : BitVec 32) (s : State) : Host.Outcome State Fault Refusal :=
  .next (respondLookup (unpackRaw 4 syms) s)

end Sys2Proof.Machine
end

