-- ==== Sys2Proof/Machine/ReplyEncoder.lean ====
section
/-! DEFINITION. The reply encoder commands SHORTADDR, LONGADDR, SENTINEL, CUTOUT and CUTOUT_STD
(43_reply_encoder.md R110 to R121). -/

namespace Sys2Proof.Machine

/-- The result of SHORTADDR (43_reply_encoder.md R110): part A for an even cycle, part B for an odd one. -/
def shortAddrFrame (addr cycle : Byte) : Word :=
  if cycle.getLsbD 0 then packGroups 2 2 (zext32 addr) else packGroups 2 1 0

/-- Part A's payload of a long address, `0x80 | zext_8(high[5:0])` (43_reply_encoder.md R112, 90_conflicts.md C1). -/
def longAddrHighPayload (high : Byte) : Byte := 0x80 ||| (high.extractLsb' 0 6).setWidth 8

/-- The result of LONGADDR (43_reply_encoder.md R112). -/
def longAddrFrame (high low cycle : Byte) : Word :=
  if cycle.getLsbD 0 then packGroups 2 2 (zext32 low)
  else packGroups 2 1 (zext32 (longAddrHighPayload high))

/-- The sentinel symbol `[Ack, AckAlt, Nack, Busy][sel]` (43_reply_encoder.md R114, R115). PRESUMED (log entry
11): the spec marks the four values as general knowledge. -/
def sentinelSymbol (sel : BitVec 2) : Byte :=
  match sel with
  | 0#2 => 0x0F
  | 1#2 => 0xF0
  | 2#2 => 0x3C
  | 3#2 => 0xE1

/-- The remaining wait of 43_reply_encoder.md R117. -/
def cutoutRemaining (endTime offset now : Word) : Word :=
  let elapsed := sub32 now endTime
  if offset ≤ elapsed then 0 else offset - elapsed

/-- The standard offset of a channel (43_reply_encoder.md R116, R118). -/
def channelOffset (P : Params) (ch : BitVec 1) : Word :=
  if bit ch then BitVec.ofNat 32 P.ch2Offset else BitVec.ofNat 32 P.ch1Offset

/-- SHORTADDR (43_reply_encoder.md R110). -/
def execShortAddr (addr cycle : Byte) (s : State) : Host.Outcome State Fault Refusal :=
  .next (respondOk (shortAddrFrame addr cycle) s)

/-- LONGADDR (43_reply_encoder.md R112). -/
def execLongAddr (high low cycle : Byte) (s : State) : Host.Outcome State Fault Refusal :=
  .next (respondOk (longAddrFrame high low cycle) s)

/-- SENTINEL (43_reply_encoder.md R115). -/
def execSentinel (sel : BitVec 2) (s : State) : Host.Outcome State Fault Refusal :=
  .next (respondOk (zext32 (sentinelSymbol sel)) s)

/-- CUTOUT (43_reply_encoder.md R117). -/
def execCutout (endTime offset now : Word) (s : State) : Host.Outcome State Fault Refusal :=
  .next (respondOk (cutoutRemaining endTime offset now) s)

/-- CUTOUT_STD (43_reply_encoder.md R118). -/
def execCutoutStd (endTime : Word) (ch : BitVec 1) (now : Word) (s : State) : Host.Outcome State Fault Refusal :=
  .next (respondOk (cutoutRemaining endTime (channelOffset s.params ch) now) s)

end Sys2Proof.Machine
end

