-- ==== Sys2Proof/Syntax.lean ====
section
/-! DEFINITION. The commands of the opcode map, 30_encoding.md R71: one constructor per row, each operand at
the exact width R71 gives its field. -/

namespace Sys2Proof

inductive Instr where
  /-- EDGE, OP 0x01: `now = A[31:0]`, `lvl = B[0]`. -/
  | edge (now : Word) (lvl : BitVec 1)
  /-- READ_PACKET, OP 0x02. -/
  | readPacket
  /-- READ_CLEAR, OP 0x03. -/
  | readClear
  /-- CLEAR_READY, OP 0x04. -/
  | clearReady
  /-- ENC6, OP 0x10: `v = A[7:0]`. -/
  | enc6 (v : Byte)
  /-- DEC8, OP 0x11: `s = A[7:0]`. -/
  | dec8 (sym : Byte)
  /-- ENC12, OP 0x12: `id = A[3:0]`, `payload = B[7:0]`. -/
  | enc12 (id : BitVec 4) (payload : BitVec 8)
  /-- ENC18, OP 0x13: `id = A[3:0]`, `payload = B[13:0]`. -/
  | enc18 (id : BitVec 4) (payload : BitVec 14)
  /-- ENC24, OP 0x14: `id = A[3:0]`, `payload = B[19:0]`. -/
  | enc24 (id : BitVec 4) (payload : BitVec 20)
  /-- DEC16, OP 0x15: `S = A[15:0]`. -/
  | dec16 (syms : BitVec 16)
  /-- DEC24, OP 0x16: `S = A[23:0]`. -/
  | dec24 (syms : BitVec 24)
  /-- DEC32, OP 0x17: `S = A[31:0]`. -/
  | dec32 (syms : BitVec 32)
  /-- SHORTADDR, OP 0x18: `addr = A[7:0]`, `cycle = B[7:0]`. -/
  | shortAddr (addr cycle : Byte)
  /-- LONGADDR, OP 0x19: `high = A[7:0]`, `low = B[7:0]`, `cycle = C[7:0]`. -/
  | longAddr (high low cycle : Byte)
  /-- SENTINEL, OP 0x1A: `sel = A[1:0]`. -/
  | sentinel (sel : BitVec 2)
  /-- CUTOUT, OP 0x1B: `end = A[31:0]`, `offset = B[31:0]`, `now = C[31:0]`. -/
  | cutout (endTime offset now : Word)
  /-- CUTOUT_STD, OP 0x1C: `end = A[31:0]`, `ch = B[0]`, `now = C[31:0]`. -/
  | cutoutStd (endTime : Word) (ch : BitVec 1) (now : Word)
deriving DecidableEq, Repr

end Sys2Proof
end

