-- ==== Sys2Proof/Machine/Dispatch.lean ====
section
/-! DEFINITION. Dispatch of a command to its meaning, one arm per row of the opcode map (30_encoding.md R71). -/

namespace Sys2Proof.Machine

/-- The effect of a command. -/
def exec (i : Instr) (s : State) : Host.Outcome State Fault Refusal :=
  match i with
  | .edge now lvl => Sys2Proof.Machine.execEdge now lvl s
  | .readPacket => Sys2Proof.Machine.execReadPacket s
  | .readClear => Sys2Proof.Machine.execReadClear s
  | .clearReady => Sys2Proof.Machine.execClearReady s
  | .enc6 v => Sys2Proof.Machine.execEnc6 v s
  | .dec8 sym => Sys2Proof.Machine.execDec8 sym s
  | .enc12 id payload => Sys2Proof.Machine.execEnc12 id payload s
  | .enc18 id payload => Sys2Proof.Machine.execEnc18 id payload s
  | .enc24 id payload => Sys2Proof.Machine.execEnc24 id payload s
  | .dec16 syms => Sys2Proof.Machine.execDec16 syms s
  | .dec24 syms => Sys2Proof.Machine.execDec24 syms s
  | .dec32 syms => Sys2Proof.Machine.execDec32 syms s
  | .shortAddr addr cycle => Sys2Proof.Machine.execShortAddr addr cycle s
  | .longAddr high low cycle => Sys2Proof.Machine.execLongAddr high low cycle s
  | .sentinel sel => Sys2Proof.Machine.execSentinel sel s
  | .cutout endTime offset now => Sys2Proof.Machine.execCutout endTime offset now s
  | .cutoutStd endTime ch now => Sys2Proof.Machine.execCutoutStd endTime ch now s

end Sys2Proof.Machine
end

