-- ==== Sys2Proof/Decode.lean ====
section
/-! DEFINITION. Decoding and encoding of command words: the formats, fields and opcode map of 30_encoding.md
R66, R69, R70, R71, R73 and R77. -/

namespace Sys2Proof

/-- The four operand formats of 30_encoding.md R69. -/
inductive Format where
  | n
  | a
  | ab
  | abc
deriving DecidableEq, Repr

/-- One row of the opcode map of 30_encoding.md R71. -/
structure OpcodeRow where
  mnemonic : String
  op : Byte
  format : Format
deriving DecidableEq, Repr

/-- The opcode map of 30_encoding.md R71. -/
def opcodeRows : List OpcodeRow :=
  [⟨"EDGE", 0x01, .ab⟩, ⟨"READ_PACKET", 0x02, .n⟩, ⟨"READ_CLEAR", 0x03, .n⟩, ⟨"CLEAR_READY", 0x04, .n⟩]
  ++ [⟨"ENC6", 0x10, .a⟩, ⟨"DEC8", 0x11, .a⟩]
  ++ [⟨"ENC12", 0x12, .ab⟩, ⟨"ENC18", 0x13, .ab⟩, ⟨"ENC24", 0x14, .ab⟩]
  ++ [⟨"DEC16", 0x15, .a⟩, ⟨"DEC24", 0x16, .a⟩, ⟨"DEC32", 0x17, .a⟩]
  ++ [⟨"SHORTADDR", 0x18, .ab⟩, ⟨"LONGADDR", 0x19, .abc⟩, ⟨"SENTINEL", 0x1A, .a⟩]
  ++ [⟨"CUTOUT", 0x1B, .abc⟩, ⟨"CUTOUT_STD", 0x1C, .abc⟩]

/-- Why a command word is no command: its opcode is unassigned (30_encoding.md R73). -/
inductive DecodeError where
  | unassignedOpcode (op : Byte)
deriving DecidableEq, Repr

/-- `OP = CW[103:96]` (30_encoding.md R66). -/
def opField (cw : CmdWord) : Byte := cw.extractLsb' 96 8

/-- `A = CW[95:64]` (30_encoding.md R66). -/
def aField (cw : CmdWord) : Word := cw.extractLsb' 64 32

/-- `B = CW[63:32]` (30_encoding.md R66). -/
def bField (cw : CmdWord) : Word := cw.extractLsb' 32 32

/-- `C = CW[31:0]` (30_encoding.md R66). -/
def cField (cw : CmdWord) : Word := cw.extractLsb' 0 32

/-- The operand slice `v[n-1:0]` (30_encoding.md R71, R75: every operand field starts at bit 0 of its word and
"every other bit is ignored", R70). -/
def slice (n : Nat) (v : Word) : BitVec n := v.extractLsb' 0 n

/-- The command of opcode `op` with operand words `a`, `b`, `c` (30_encoding.md R71), or the rejection of an
unassigned opcode (R73). -/
def decodeFields (op : Byte) (a b c : Word) : Except DecodeError Instr :=
  match op with
  | 0x01#8 => .ok (.edge a (slice 1 b))
  | 0x02#8 => .ok .readPacket
  | 0x03#8 => .ok .readClear
  | 0x04#8 => .ok .clearReady
  | 0x10#8 => .ok (.enc6 (slice 8 a))
  | 0x11#8 => .ok (.dec8 (slice 8 a))
  | 0x12#8 => .ok (.enc12 (slice 4 a) (slice 8 b))
  | 0x13#8 => .ok (.enc18 (slice 4 a) (slice 14 b))
  | 0x14#8 => .ok (.enc24 (slice 4 a) (slice 20 b))
  | 0x15#8 => .ok (.dec16 (slice 16 a))
  | 0x16#8 => .ok (.dec24 (slice 24 a))
  | 0x17#8 => .ok (.dec32 a)
  | 0x18#8 => .ok (.shortAddr (slice 8 a) (slice 8 b))
  | 0x19#8 => .ok (.longAddr (slice 8 a) (slice 8 b) (slice 8 c))
  | 0x1A#8 => .ok (.sentinel (slice 2 a))
  | 0x1B#8 => .ok (.cutout a b c)
  | 0x1C#8 => .ok (.cutoutStd a (slice 1 b) c)
  | op => .error (.unassignedOpcode op)

/-- Decoding of a command word, total on all `2^104` of them (30_encoding.md R74). -/
def decode (cw : CmdWord) : Except DecodeError Instr :=
  decodeFields (opField cw) (aField cw) (bField cw) (cField cw)

/-- `OP ++ A ++ B ++ C` (30_encoding.md R77, R66). -/
def mkCmdWord (op : Byte) (a b c : Word) : CmdWord := op ++ a ++ b ++ c

/-- A field placed at bit 0 of its operand word, "every other bit 0" (30_encoding.md R77). -/
def place {n : Nat} (v : BitVec n) : Word := v.setWidth 32

/-- The command word of a command (30_encoding.md R71, R77). -/
def encode : Instr → CmdWord
  | .edge now lvl => mkCmdWord 0x01 now (place lvl) 0
  | .readPacket => mkCmdWord 0x02 0 0 0
  | .readClear => mkCmdWord 0x03 0 0 0
  | .clearReady => mkCmdWord 0x04 0 0 0
  | .enc6 v => mkCmdWord 0x10 (place v) 0 0
  | .dec8 sym => mkCmdWord 0x11 (place sym) 0 0
  | .enc12 id payload => mkCmdWord 0x12 (place id) (place payload) 0
  | .enc18 id payload => mkCmdWord 0x13 (place id) (place payload) 0
  | .enc24 id payload => mkCmdWord 0x14 (place id) (place payload) 0
  | .dec16 syms => mkCmdWord 0x15 (place syms) 0 0
  | .dec24 syms => mkCmdWord 0x16 (place syms) 0 0
  | .dec32 syms => mkCmdWord 0x17 syms 0 0
  | .shortAddr addr cycle => mkCmdWord 0x18 (place addr) (place cycle) 0
  | .longAddr high low cycle => mkCmdWord 0x19 (place high) (place low) (place cycle)
  | .sentinel sel => mkCmdWord 0x1A (place sel) 0 0
  | .cutout endTime offset now => mkCmdWord 0x1B endTime offset now
  | .cutoutStd endTime ch now => mkCmdWord 0x1C endTime (place ch) now

/-- The command word of an instruction whose bits are numbered as spec/opcode_table.json numbers them: `OP` is
bits 7..0, then `A`, `B` and `C` count on from it as 39..8, 71..40 and 103..72 (log entry 8). Bits from
`nbits` up are 0. -/
def tableCmdWord (nbits w : Nat) : CmdWord :=
  let v := w % 2 ^ nbits
  mkCmdWord (BitVec.ofNat 8 v) (BitVec.ofNat 32 (v >>> 8)) (BitVec.ofNat 32 (v >>> 40))
    (BitVec.ofNat 32 (v >>> 72))

/-- The command the decoder reads from an instruction given in the table's numbering. -/
def decodeTableWord (nbits w : Nat) : Option Instr :=
  match decode (tableCmdWord nbits w) with
  | .ok i => some i
  | .error _ => none

end Sys2Proof
end

