-- ==== Sys2Proof/Machine/Port.lean ====
section
/-! DEFINITION. The block's inputs (30_encoding.md R65): how the next command reaches the command port from the
agents (20_memory.md R60, R61), and the reset input (70_reset_and_hazards.md R190). -/

namespace Sys2Proof.Machine

/-- The commands an agent has still to present. -/
def State.stream (s : State) (a : Agent) : List CmdWord :=
  match a with
  | .edgeSource => s.edgeStream
  | .consumer => s.consumerStream
  | .encoderClient => s.clientStream

/-- The state with an agent's stream replaced. -/
def State.withStream (s : State) (a : Agent) (cws : List CmdWord) : State :=
  match a with
  | .edgeSource => { s with edgeStream := cws }
  | .consumer => { s with consumerStream := cws }
  | .encoderClient => { s with clientStream := cws }

/-- What the next event brings. -/
inductive Fetched where
  /-- No command is accepted; the state after the event. -/
  | idle (t : State)
  /-- The command `cw` is accepted, in the state `t` from which it runs. -/
  | command (cw : CmdWord) (t : State)
deriving DecidableEq, Repr

/-- The state as an event begins: "R0 to R3 ... hold nothing between commands" (10_state.md R38). -/
def State.beginEvent (s : State) (rest : List PortEvent) : State :=
  { s with schedule := rest, response := none }

/-- The reset input is driven to a level. When `rst` is released "every state element of 10_state.md holds the
reset value" and "the parameters are not affected" (70_reset_and_hazards.md R190). -/
def driveRst (asserted : Bool) (s : State) : State :=
  if s.rst && !asserted then { s with dec := Decoder.reset, rst := false } else { s with rst := asserted }

/-- The state from which an accepted command of agent `a` runs, the agent's stream being `cws` after it. -/
def acceptCommand (a : Agent) (cws : List CmdWord) (rest : List PortEvent) (s : State) : State :=
  (s.beginEvent rest).withStream a cws

/-- The next event. While `rst` is asserted "the block accepts no command" (70_reset_and_hazards.md R190): the
command stays with its agent (log entry 5). With no event, or an agent with nothing to present, the block stays
as it is (44_bitstream_decoder.md R142). -/
def fetch (s : State) : Fetched :=
  match s.schedule with
  | [] => .idle (s.beginEvent [])
  | .setRst asserted :: rest => .idle (driveRst asserted (s.beginEvent rest))
  | .present a :: rest =>
    if s.rst then .idle (s.beginEvent rest)
    else
      match s.stream a with
      | [] => .idle (s.beginEvent rest)
      | cw :: cws => .command cw (acceptCommand a cws rest s)

/-- A command with an unassigned opcode "changes no state and returns `ST = ILLEGAL`" (30_encoding.md R73). -/
def execUnassigned (_reason : DecodeError) (s : State) : Host.Outcome State Fault Refusal :=
  .next (respondIllegal s)

/-- `cw` is what the command port takes next: `rst` is low, and the edge source presents it ahead of all that is
scheduled. -/
def presentNext (cw : CmdWord) (s : State) : State :=
  { s with rst := false, edgeStream := cw :: s.edgeStream, schedule := .present .edgeSource :: s.schedule }

end Sys2Proof.Machine
end

