-- ==== Sys2Proof/WellFormed.lean ====
section
/-! DEFINITION. Well-formedness: the constraints of 00_scope.md R8 on a parameter set, and of 30_encoding.md
R74 on a command. -/

namespace Sys2Proof

/-- The constraint column of 00_scope.md R8, row by row. "A parameter set that breaks a constraint is
refused by the model." -/
def Params.wf (P : Params) : Bool :=
  decide (P.oneMin < P.split)
    && decide (P.split ≤ P.zeroMax)
    && decide (P.zeroMax < 2 ^ 32)
    && decide (1 ≤ P.preambleMin)
    && decide (P.preambleMin ≤ P.preambleCap)
    && decide (P.preambleCap ≤ 255)
    && decide (1 ≤ P.maxLen)
    && decide (P.maxLen ≤ 8)
    && decide (P.ch1Offset < P.ch2Offset)
    && decide (P.ch2Offset < 2 ^ 32)

/-- 30_encoding.md R74: "Every operand value is legal for every assigned command: no field value is
reserved." The widths of the fields stand in `Instr`'s types, so no check is left. -/
def Instr.wf : Instr → Bool
  | .edge _ _ => true
  | .readPacket => true
  | .readClear => true
  | .clearReady => true
  | .enc6 _ => true
  | .dec8 _ => true
  | .enc12 _ _ => true
  | .enc18 _ _ => true
  | .enc24 _ _ => true
  | .dec16 _ => true
  | .dec24 _ => true
  | .dec32 _ => true
  | .shortAddr _ _ => true
  | .longAddr _ _ _ => true
  | .sentinel _ => true
  | .cutout _ _ _ => true
  | .cutoutStd _ _ _ => true

end Sys2Proof
end

