-- ==== Sys2Proof/Machine/Step.lean ====
section
/-! DEFINITION. One step of the machine: one command, executed atomically (00_scope.md R3, 20_memory.md R56), or
one event that accepts none. -/

namespace Sys2Proof.Machine

/-- The effect of a command word: its command's, or ILLEGAL (30_encoding.md R73, R74). -/
def runCommand (cw : CmdWord) (s : State) : Host.Outcome State Fault Refusal :=
  match decode cw with
  | .ok i => exec i s
  | .error e => execUnassigned e s

/-- One step. "A parameter set that breaks a constraint is refused by the model" (00_scope.md R8). -/
def step (s : State) : Host.Outcome State Fault Refusal :=
  if s.params.wf then
    match fetch s with
    | .idle t => .next t
    | .command cw t => runCommand cw t
  else .refused .badParameters

/-- `s` with the instruction of a table word presented next (log entry 8). -/
def State.withFetchWord (s : State) (nbits w : Nat) : State := presentNext (tableCmdWord nbits w) s

end Sys2Proof.Machine
end

