-- ==== Sys2Proof/Machine/Assembler.lean ====
section
/-! DEFINITION. The assembler notation of 30_encoding.md R77 to R79: command lines, the two cursors, the directives
and the pseudo-commands. It produces command words; the machine never reads it. -/

namespace Sys2Proof.Machine

/-- The time cursor `τ` and the level cursor `λ` (30_encoding.md R78). -/
structure AsmCursor where
  time : Word
  level : Bool
deriving DecidableEq, Repr

/-- One line of assembler (30_encoding.md R77, R78). -/
inductive AsmItem where
  /-- `MNEMONIC a, b, c`, with the operands its format uses. -/
  | command (row : OpcodeRow) (operands : List Word)
  /-- `.time t` -/
  | time (t : Word)
  /-- `.level l` -/
  | level (l : Bool)
  /-- `H d` -/
  | half (d : Word)
  /-- `B1` -/
  | one
  /-- `B0` -/
  | zero
  /-- `BYTE v` -/
  | byte (v : Byte)
  /-- `PRE n` -/
  | pre (n : Nat)
  /-- `PACKET p, b0, ..., bm` -/
  | packet (p : Nat) (bytes : List Byte)
deriving DecidableEq, Repr

/-- A command line as a command word, "with the operands in the order A, B, C of rule R71 and only the fields the
format uses" (30_encoding.md R77); no word for another number of operands. -/
def asmCommand (row : OpcodeRow) (operands : List Word) : Option CmdWord :=
  match row.format, operands with
  | .n, [] => some (mkCmdWord row.op 0 0 0)
  | .a, [a] => some (mkCmdWord row.op a 0 0)
  | .ab, [a, b] => some (mkCmdWord row.op a b 0)
  | .abc, [a, b, c] => some (mkCmdWord row.op a b c)
  | _, _ => none

/-- The half-bits of a logical bit: `H 58` twice or `H 100` twice (30_encoding.md R78). -/
def asmBit (b : Bool) : List Word := if b then [58, 58] else [100, 100]

/-- The bits of a byte, `v[7]` down to `v[0]` (30_encoding.md R78, 20_memory.md R51). -/
def bitsOfByte (v : Byte) : List Bool :=
  [v.getLsbD 7, v.getLsbD 6, v.getLsbD 5, v.getLsbD 4, v.getLsbD 3, v.getLsbD 2, v.getLsbD 1, v.getLsbD 0]

/-- The bits of a packet: `PRE p; B0; BYTE b0; B0; BYTE b1; ...; B0; BYTE bm; B1` (30_encoding.md R78). -/
def bitsOfPacket (p : Nat) (bytes : List Byte) : List Bool :=
  List.replicate p true ++ (bytes.flatMap fun v => false :: bitsOfByte v) ++ [true]

/-- One half-bit of `d` µs: `τ <- τ +32 d; λ <- ¬λ`, then `EDGE τ, λ` (30_encoding.md R78). -/
def asmHalf (c : AsmCursor) (d : Word) : AsmCursor × Instr :=
  let c := { time := c.time + d, level := !c.level : AsmCursor }
  (c, .edge c.time (BitVec.ofBool c.level))

/-- A run of half-bits. -/
def asmHalves : AsmCursor → List Word → AsmCursor × List Instr
  | c, [] => (c, [])
  | c, d :: ds =>
    let r := asmHalves (asmHalf c d).1 ds
    (r.1, (asmHalf c d).2 :: r.2)

/-- The command words of one line, and the cursors after it (30_encoding.md R78). -/
def asmItem (c : AsmCursor) (item : AsmItem) : Option (AsmCursor × List CmdWord) :=
  let halves (ds : List Word) := some ((asmHalves c ds).1, (asmHalves c ds).2.map encode)
  match item with
  | .command row operands => (asmCommand row operands).map fun cw => (c, [cw])
  | .time t => some ({ c with time := t }, [encode (.edge t (BitVec.ofBool c.level))])
  | .level l => some ({ c with level := l }, [])
  | .half d => halves [d]
  | .one => halves (asmBit true)
  | .zero => halves (asmBit false)
  | .byte v => halves ((bitsOfByte v).flatMap asmBit)
  | .pre n => halves ((List.replicate n true).flatMap asmBit)
  | .packet p bytes => halves ((bitsOfPacket p bytes).flatMap asmBit)

/-- The command words of a list of lines. -/
def assemble : AsmCursor → List AsmItem → Option (List CmdWord)
  | _, [] => some []
  | c, item :: items =>
    match asmItem c item with
    | none => none
    | some (c', cws) => (assemble c' items).map fun rest => cws ++ rest

/-! ## The text of a line (30_encoding.md R77) -/

/-- White space. -/
def isBlank (ch : Char) : Bool := ch == ' ' || ch == '\t'

/-- White space at the front dropped. -/
def trimLeft (cs : List Char) : List Char := cs.dropWhile isBlank

/-- White space at both ends dropped. -/
def trim (cs : List Char) : List Char := (trimLeft (trimLeft cs).reverse).reverse

/-- The value of a digit in a base. -/
def digitValue (base : Nat) (ch : Char) : Option Nat :=
  let n := ch.toNat
  let v := if 48 ≤ n ∧ n ≤ 57 then n - 48 else if 97 ≤ n ∧ n ≤ 102 then n - 87
    else if 65 ≤ n ∧ n ≤ 70 then n - 55 else base
  if v < base then some v else none

/-- The number a digit string spells, `acc` so far. -/
def digits (base : Nat) : Nat → List Char → Option Nat
  | acc, [] => some acc
  | acc, ch :: cs =>
    match digitValue base ch with
    | some v => digits base (acc * base + v) cs
    | none => none

/-- A number, "decimal or hexadecimal with a `0x` prefix". -/
def parseNumber : List Char → Option Nat
  | [] => none
  | ['0', 'x'] => none
  | '0' :: 'x' :: cs => digits 16 0 cs
  | cs => digits 10 0 cs

/-- The list cut at the commas. -/
def splitCommas : List Char → List (List Char)
  | [] => [[]]
  | ch :: cs =>
    match ch == ',', splitCommas cs with
    | true, r => [] :: r
    | false, [] => [[ch]]
    | false, w :: r => (ch :: w) :: r

/-- The numbers of an operand list. -/
def parseOperands (cs : List Char) : Option (List Nat) :=
  if trim cs = [] then some [] else (splitCommas cs).mapM fun w => parseNumber (trim w)

/-- A number that fits a width (log entry 12). -/
def fits (n : Nat) (v : Nat) : Option (BitVec n) := if v < 2 ^ n then some (BitVec.ofNat n v) else none

/-- The item a name and its operands spell. -/
def itemOf (name : String) (ops : List Nat) : Option AsmItem :=
  match name, ops with
  | ".time", [t] => (fits 32 t).map .time
  | ".level", [l] => (fits 1 l).map fun b => .level (b.getLsbD 0)
  | "H", [d] => (fits 32 d).map .half
  | "B1", [] => some .one
  | "B0", [] => some .zero
  | "BYTE", [v] => (fits 8 v).map .byte
  | "PRE", [n] => some (.pre n)
  | "PACKET", p :: b :: bs => ((b :: bs).mapM (fits 8)).map (.packet p)
  | name, ops =>
    match opcodeRows.find? fun row => row.mnemonic == name with
    | some row => (ops.mapM (fits 32)).map (.command row)
    | none => none

/-- One line of text: "A comment runs from `;` to the end of the line." A blank line holds no item. -/
def parseLine (line : List Char) : Option (Option AsmItem) :=
  let cs := trim (line.takeWhile (· != ';'))
  if cs = [] then some none
  else
    (parseOperands (cs.dropWhile fun ch => !isBlank ch)).bind fun ops =>
      (itemOf (String.ofList (cs.takeWhile fun ch => !isBlank ch)) ops).map some

/-- The command words of an assembler text, line by line. -/
def assembleText (c : AsmCursor) (lines : List String) : Option (List CmdWord) :=
  (lines.mapM fun l => parseLine l.toList).bind fun items => assemble c (items.filterMap id)

end Sys2Proof.Machine
end

