-- ==== Sys2Proof/Safety.lean ====
section
/-! DEFINITION. What holds of the block between commands: the invariant of 10_state.md R42, and what the packet
buffer, the running exclusive-or and the recorded preamble lengths mean in it. -/

namespace Sys2Proof.Machine

/-- The invariant of 10_state.md R42, clause by clause (`bit_cnt <= 7` stands in its width). -/
structure ControlInv (P : Params) (d : Decoder) : Prop where
  lenFits : d.len.toNat ≤ P.maxLen
  preCntFits : d.preCnt.toNat ≤ P.preambleCap
  notStartBit : d.state ≠ .waitStartBit
  endBitAfterByte : d.state = .waitEndBit → d.bitCnt = 0 ∧ 1 ≤ d.len.toNat
  curByteFits : d.state = .waitData → d.curByte.toNat < 2 ^ d.bitCnt.toNat
  unprimed : d.primed = false → d.halfPending = false ∧ d.state = .waitPreamble

/-- The packet buffer is in canonical form and holds `P_MAX_LEN` bytes (20_memory.md R49, R50). -/
structure BufferInv (P : Params) (d : Decoder) : Prop where
  canonical : Memory.wf d.buf = true
  within : ∀ i, P.maxLen ≤ i → bufRead d i = 0

/-- The exclusive-or of the stored bytes `buf[0..len-1]`. -/
def packetXor (d : Decoder) : Byte := (List.range d.len.toNat).foldl (fun x i => x ^^^ bufRead d i) 0

/-- `xor` is "the running exclusive-or of every byte stored in the current packet" (10_state.md R32). -/
def ChecksumInv (d : Decoder) : Prop := d.xorSum = packetXor d

/-- The recorded preamble lengths come from a preamble that qualified and was counted up to the cap (10_state.md
R24, R37; 44_bitstream_decoder.md R135, R136, R139). -/
structure PreambleInv (P : Params) (d : Decoder) : Prop where
  curPreFits : d.curPre.toNat ≤ P.preambleCap
  pktPreFits : d.pktPre.toNat ≤ P.preambleCap
  inPacket : d.state = .waitData ∨ d.state = .waitEndBit → P.preambleMin ≤ d.curPre.toNat
  published : d.ready = true → P.preambleMin ≤ d.pktPre.toNat

/-- The state of a block that runs: its parameters are admitted and all four invariants hold. -/
structure BlockInv (s : State) : Prop where
  params : s.params.wf = true
  control : ControlInv s.params s.dec
  buffer : BufferInv s.params s.dec
  checksum : ChecksumInv s.dec
  preamble : PreambleInv s.params s.dec

/-- A safe outcome of a step: the machine goes on, in a state that meets the invariant. -/
def SafeOutcome (o : Host.Outcome State Fault Refusal) : Prop :=
  match o with
  | .next t => BlockInv t
  | .fault _ => False
  | .refused _ => False

/-! ## Runs of commands -/

/-- The state after a command. -/
def after (i : Instr) (s : State) : State :=
  match exec i s with
  | .next t => t
  | .fault _ => s
  | .refused _ => s

/-- The state after a run of EDGE commands, each its `now` and `lvl`. -/
def afterEdges (s : State) (es : List (Word × BitVec 1)) : State :=
  es.foldl (fun u e => after (.edge e.1 e.2) u) s

/-- The state after a run of commands, of any agents. -/
def afterAll (s : State) (cmds : List Instr) : State := cmds.foldl (fun u i => after i u) s

/-- The EDGE of a command, if it is one: its `now` and `lvl`. -/
def edgeOf : Instr → Option (Word × BitVec 1)
  | .edge now lvl => some (now, lvl)
  | .readPacket | .readClear | .clearReady => none
  | .enc6 _ | .dec8 _ | .enc12 _ _ | .enc18 _ _ | .enc24 _ _ => none
  | .dec16 _ | .dec24 _ | .dec32 _ => none
  | .shortAddr _ _ | .longAddr _ _ _ | .sentinel _ => none
  | .cutout _ _ _ | .cutoutStd _ _ _ => none

/-- The EDGE commands of a run, in order. -/
def edgesIn (cmds : List Instr) : List (Word × BitVec 1) := cmds.filterMap edgeOf

/-- The intervals a run of EDGE commands measures, the first from `t` (44_bitstream_decoder.md R128). -/
def intervals : Word → List (Word × BitVec 1) → List Word
  | _, [] => []
  | t, e :: es => sub32 e.1 t :: intervals e.1 es

/-- The class of both half-bits of a bit (44_bitstream_decoder.md R130). -/
def classOfBit (b : Bool) : HalfClass := if b then .one else .zero

/-- The interval classes that spell a list of bits, two matching half-bits a bit (44_bitstream_decoder.md R130). -/
def halvesOfBits (bits : List Bool) : List IntervalClass :=
  bits.flatMap fun b => [.valid (classOfBit b), .valid (classOfBit b)]

/-- The edges `es` carry `bits` to a block in state `s`: every interval is in the band of its half-bit, whatever its
length in the band. -/
def Carries (s : State) (es : List (Word × BitVec 1)) (bits : List Bool) : Prop :=
  (intervals s.dec.lastT es).map (classify s.params) = halvesOfBits bits

/-- The block is between bits: it has an edge to measure from, and no half-bit waits for its partner. -/
def BetweenBits (s : State) : Prop := s.dec.primed = true ∧ s.dec.halfPending = false

end Sys2Proof.Machine
end

