-- ==== Sys2Proof/Certificates/Slice0/Obligations.lean ====
section
/-! DEFINITION. The statements about the model, each from a numbered rule of spec/. A response is written out as
`⟨status, R0, R1, R2, R3⟩`. -/

open Sys2Proof Sys2Proof.Machine

namespace Sys2Proof.Machine

/-- The state after a command that answers `OK` with result `r0` and changes nothing else. -/
def answered (s : State) (r0 : Word) : State := { s with response := some ⟨.ok, r0, 0, 0, 0⟩ }

/-- The command has no table entry to answer with: status `NOCODE`, some unconstrained `R0`, nothing else of the
spec's state changed (`draws` is the model's own counter of free values, log entry 3). -/
def AnswersNoCode (i : Instr) (s : State) : Prop :=
  ∃ r0, exec i s = .next { s with response := some ⟨.nocode, r0, 0, 0, 0⟩, draws := s.draws + 1 }

/-- A byte that is an entry of the balanced-code table. -/
def IsEntry (b : Byte) : Prop := ∃ c, rom c = b

/-- The number of set bits of a byte. -/
def setBits (b : Byte) : Nat := (List.range 8).countP fun i => b.getLsbD i

/-- The operand bits a command consults, from the operand fields of 30_encoding.md R71, less `v[7:6]` of ENC6
(41_balanced_code.md R86), all but bit 0 of the cycle operands (43_reply_encoder.md R110, R112) and `high[7:6]` of
LONGADDR (R112). -/
def consultedBits (op : Byte) : CmdWord :=
  match op with
  | 0x01#8 => mkCmdWord 0xFF 0xFFFFFFFF 1 0
  | 0x10#8 => mkCmdWord 0xFF 0x3F 0 0
  | 0x11#8 => mkCmdWord 0xFF 0xFF 0 0
  | 0x12#8 => mkCmdWord 0xFF 0xF 0xFF 0
  | 0x13#8 => mkCmdWord 0xFF 0xF 0x3FFF 0
  | 0x14#8 => mkCmdWord 0xFF 0xF 0xFFFFF 0
  | 0x15#8 => mkCmdWord 0xFF 0xFFFF 0 0
  | 0x16#8 => mkCmdWord 0xFF 0xFFFFFF 0 0
  | 0x17#8 => mkCmdWord 0xFF 0xFFFFFFFF 0 0
  | 0x18#8 => mkCmdWord 0xFF 0xFF 0x1 0
  | 0x19#8 => mkCmdWord 0xFF 0x3F 0xFF 0x1
  | 0x1A#8 => mkCmdWord 0xFF 0x3 0 0
  | 0x1B#8 => mkCmdWord 0xFF 0xFFFFFFFF 0xFFFFFFFF 0xFFFFFFFF
  | 0x1C#8 => mkCmdWord 0xFF 0xFFFFFFFF 0x1 0xFFFFFFFF
  | _ => mkCmdWord 0xFF 0 0 0

/-- The opcodes of 30_encoding.md R73. -/
def Unassigned (op : Byte) : Prop :=
  op.toNat = 0x00 ∨ (0x05 ≤ op.toNat ∧ op.toNat ≤ 0x0F) ∨ 0x1D ≤ op.toNat

/-- The commands of the encoder client (20_memory.md R60). -/
def EncoderCommand (i : Instr) : Prop :=
  match i with
  | .edge _ _ => False
  | .readPacket => False
  | .readClear => False
  | .clearReady => False
  | .enc6 _ => True
  | .dec8 _ => True
  | .enc12 _ _ => True
  | .enc18 _ _ => True
  | .enc24 _ _ => True
  | .dec16 _ => True
  | .dec24 _ => True
  | .dec32 _ => True
  | .shortAddr _ _ => True
  | .longAddr _ _ _ => True
  | .sentinel _ => True
  | .cutout _ _ _ => True
  | .cutoutStd _ _ _ => True

/-- The interval an EDGE at `now` measures in state `s` (44_bitstream_decoder.md R128). -/
def measured (s : State) (now : Word) : Word := now - s.dec.lastT

/-- The decoder with the time and the level of an EDGE recorded (44_bitstream_decoder.md R128). -/
def edged (s : State) (now : Word) (lvl : BitVec 1) : Decoder :=
  { s.dec with level := lvl = 1, lastT := now }

/-- The decoder as a completed bit reaches the state machine: the edge recorded, no half-bit waiting (R128, R130). -/
def bitReady (s : State) (now : Word) (lvl : BitVec 1) : Decoder :=
  { s.dec with level := lvl = 1, lastT := now, halfPending := false }

/-- An EDGE at `now` closes the bit `b`: a half-bit of its class waits, and the interval is of that class
(44_bitstream_decoder.md R130). -/
def ClosesBit (s : State) (now : Word) (b : Bool) : Prop :=
  s.dec.primed = true ∧ s.dec.halfPending = true ∧ s.dec.halfClass = classOfBit b
    ∧ classify s.params (measured s now) = .valid (classOfBit b)

/-- EDGE at `now` with level `lvl` answers `OK` with no result, leaves decoder `d`, and changes nothing else. -/
def EdgeGives (s : State) (now : Word) (lvl : BitVec 1) (d : Decoder) : Prop :=
  exec (.edge now lvl) s = .next { s with dec := d, response := some ⟨.ok, 0, 0, 0, 0⟩ }

/-- A command word with opcode `op` is the command `f A B C` of its operand words, every other bit ignored (30_encoding.md R66,
R70, R71). -/
def EncodedAs (op : Byte) (f : Word → Word → Word → Instr) : Prop :=
  ∀ (cw : CmdWord) (s : State), opField cw = op → runCommand cw s = exec (f (aField cw) (bField cw) (cField cw)) s

end Sys2Proof.Machine

/-! ## Encoding and stepping -/

/-- 30_encoding.md R66, R71, R75: no bit of an operand is lost between the command and its word. -/
def Obligations.DecodeOfEncodeIsTheCommand : Prop := ∀ i : Instr, i.wf = true → decode (encode i) = .ok i

/-- 30_encoding.md R77: the vectors of 95_test_vectors.md, one or more a family. -/
def Obligations.WrittenOutWordsDecode : Prop :=
  decode 0x01000004220000000100000000 = .ok (.edge 1058 1)
    ∧ decode 0x03000000000000000000000000 = .ok .readClear
    ∧ decode 0x10FFFFFF0F0000000000000000 = .ok (.enc6 0x0F)
    ∧ decode 0x130000000700003FFE00000000 = .ok (.enc18 0x7 0x3FFE)
    ∧ decode 0x16005AAC8E0000000000000000 = .ok (.dec24 0x5AAC8E)
    ∧ decode 0x19000000C3000000EC00000001 = .ok (.longAddr 0xC3 0xEC 1)
    ∧ decode 0x1C00001CD00000000300001CE8 = .ok (.cutoutStd 7376 1 7400)

/-- 30_encoding.md R74: every opcode selects exactly one row of the map, or is unassigned under R73. -/
def Obligations.EveryOpcodeIsOneRowOrUnassigned : Prop :=
  (opcodeRows.map fun r => r.op).Nodup
    ∧ ∀ cw : CmdWord,
      (Unassigned (opField cw) ∧ decode cw = .error (.unassignedOpcode (opField cw)))
        ∨ (¬ Unassigned (opField cw) ∧ opField cw ∈ opcodeRows.map (fun r => r.op)
            ∧ ∃ i, decode cw = .ok i ∧ opField (encode i) = opField cw ∧ i.wf = true)

/-- 30_encoding.md R70: operand bits that a command does not consult do not change what it does. -/
def Obligations.UnconsultedOperandBitsAreIgnored : Prop :=
  ∀ (cw : CmdWord) (s : State), runCommand (cw &&& consultedBits (opField cw)) s = runCommand cw s

/-- 30_encoding.md R73. -/
def Obligations.UnassignedOpcodeAnswersIllegal : Prop :=
  ∀ (cw : CmdWord) (s : State), Unassigned (opField cw) →
    runCommand cw s = .next { s with response := some ⟨.illegal, 0, 0, 0, 0⟩ }

/-- A step in which agent `a` presents a word runs the decoded command, or answers as for an unassigned opcode
(30_encoding.md R65, R66), from the state in which the event is taken off the schedule, the word off `a`'s stream,
and the response port is empty. The streams and the schedule are the model's (log entry 4). -/
def Obligations.StepRunsTheDecodedCommand : Prop :=
  ∀ (s : State) (a : Agent) (rest : List PortEvent) (cw : CmdWord) (cws : List CmdWord),
    s.params.wf = true → s.rst = false → s.schedule = .present a :: rest → s.stream a = cw :: cws →
      (∀ i, decode cw = .ok i →
        step s = exec i ({ s with schedule := rest, response := none }.withStream a cws))
      ∧ (∀ e, decode cw = .error e →
        step s = .next
          { { s with schedule := rest }.withStream a cws with response := some ⟨.illegal, 0, 0, 0, 0⟩ })

/-- With no command accepted a step changes nothing of the block: nothing scheduled, or an agent with nothing to
present (44_bitstream_decoder.md R142: "Without edges the decoder does not move"). -/
def Obligations.WithoutACommandTheBlockStaysParked : Prop :=
  ∀ s : State, s.params.wf = true →
    (s.schedule = [] → step s = .next { s with response := none })
    ∧ (∀ a rest, s.schedule = .present a :: rest → s.stream a = [] →
        step s = .next { s with schedule := rest, response := none })

/-- 20_memory.md R61: "a model must admit every interleaving of the agents' command streams. The order within one
agent's stream is kept." Every total order of the agents' commands is a run, and its effect is that of the commands one
after another. -/
def Obligations.EveryInterleavingIsARun : Prop :=
  ∀ (order : List (Agent × CmdWord)) (s : State),
    s.params.wf = true → s.rst = false →
    s.schedule = order.map (fun c => PortEvent.present c.1) →
    (∀ a, s.stream a = (order.filter fun c => c.1 == a).map fun c => c.2) →
    Host.Core.run Sys2Proof.core order.length s =
      .next { order.foldl (fun u c =>
          match runCommand c.2 u with
          | .next t => t
          | .fault _ => u
          | .refused _ => u) s with
        schedule := [], edgeStream := [], consumerStream := [], clientStream := [] }

/-- 00_scope.md R8, 60_exceptions.md R170: with an admitted parameter set every step goes on; with any other every step is
refused. -/
def Obligations.StepGoesOnExactlyWithAdmittedParameters : Prop :=
  ∀ s : State,
    (s.params.wf = true → ∃ t, step s = .next t ∧ t.params = s.params)
    ∧ (s.params.wf = false → step s = .refused .badParameters)

/-- 70_reset_and_hazards.md R190, 10_state.md R43: the reset input is asserted and released by events; what its release
leaves; and that no command is accepted while it is asserted. The model's choices (log entry 5): the decoder is written at
the release, a command presented meanwhile stays with its agent, and driving `rst` to the level it has changes nothing. -/
def Obligations.ResetInputHoldsAndResets : Prop :=
  (∀ (s : State) (rest : List PortEvent), s.params.wf = true → s.rst = false →
    (s.schedule = .setRst true :: rest →
      step s = .next { s with rst := true, schedule := rest, response := none })
    ∧ (s.schedule = .setRst false :: rest → step s = .next { s with schedule := rest, response := none }))
  ∧ ∀ (s : State) (rest : List PortEvent), s.params.wf = true → s.rst = true →
    (s.schedule = .setRst false :: rest →
      step s = .next { s with
        rst := false, schedule := rest, response := none
        dec := {
          state := .waitPreamble, preCnt := 0, curPre := 0, primed := false, lastT := 0, level := false
          halfPending := false, halfClass := .zero, bitCnt := 0, curByte := 0, xorSum := 0, buf := []
          len := 0, ready := false, pktTime := 0, pktPre := 0 } })
    ∧ (s.schedule = .setRst true :: rest → step s = .next { s with schedule := rest, response := none })
    ∧ (∀ a, s.schedule = .present a :: rest → step s = .next { s with schedule := rest, response := none })
    ∧ (∀ i, bufRead { s.dec with buf := [] } i = 0)

/-! ## The balanced-code table -/

/-- 20_memory.md R47. -/
def Obligations.TableHasTheConfirmedEntriesAndProperties : Prop :=
  (∀ c : Code, setBits (rom c) = 4)
    ∧ (∀ c c' : Code, rom c = rom c' → c = c')
    ∧ (∀ sel : BitVec 2, ¬ IsEntry (sentinelSymbol sel))
    ∧ rom 0x00 = 0xAC ∧ rom 0x0F = 0xB1 ∧ rom 0x3F = 0x33
    ∧ rom 0x1F = 0x53 ∧ rom 0x3E = 0x39
    ∧ rom 0x1C = 0x5A ∧ rom 0x0C = 0x8E
    ∧ rom 0x04 = 0xA3 ∧ rom 0x09 = 0x95 ∧ rom 0x02 = 0xA9
    ∧ rom 0x0B = 0x96 ∧ rom 0x2C = 0xD8
    ∧ rom 0x06 = 0x9C ∧ rom 0x03 = 0xA5

/-- 20_memory.md R48: the entries are the bytes with four set bits, less six. -/
def Obligations.EntriesAreTheFourBitBytesLessSix : Prop :=
  ∀ b : Byte, IsEntry b ↔
    setBits b = 4 ∧ b ≠ 0x0F ∧ b ≠ 0x3C ∧ b ≠ 0x87 ∧ b ≠ 0xC3 ∧ b ≠ 0xE1 ∧ b ≠ 0xF0

/-- 41_balanced_code.md R86: the result of ENC6, and that nothing else changes. -/
def Obligations.Enc6AnswersTheTableEntry : Prop :=
  (∀ (v : Byte) (s : State), exec (.enc6 v) s = .next (answered s (zext32 (rom (v.extractLsb' 0 6)))))
  ∧ EncodedAs 0x10 fun a _ _ => .enc6 (a.extractLsb' 0 8)

/-- 41_balanced_code.md R87, R89: the result of DEC8, `NOCODE` for every byte that is not an entry. -/
def Obligations.Dec8AnswersTheCodeOrNoCode : Prop :=
  (∀ (sym : Byte) (s : State),
    (∀ c, rom c = sym → exec (.dec8 sym) s = .next (answered s (zext32 c)))
    ∧ (¬ IsEntry sym → AnswersNoCode (.dec8 sym) s))
  ∧ EncodedAs 0x11 fun a _ _ => .dec8 (a.extractLsb' 0 8)

/-- 41_balanced_code.md R88. -/
def Obligations.Dec8InvertsEnc6 : Prop :=
  ∀ (v : Byte) (s : State),
    exec (.enc6 (v &&& 0x3F)) s = exec (.enc6 v) s
    ∧ ∃ r, exec (.enc6 v) s = .next (answered s r)
      ∧ ∀ u, exec (.dec8 (r.extractLsb' 0 8)) u = .next (answered u (zext32 (v.extractLsb' 0 6)))

/-- 41_balanced_code.md R90: the 256-entry inverse table "gives exactly the results of rule R87". -/
def Obligations.InverseTableGivesDec8Results : Prop :=
  inverseTable.length = 256
    ∧ ∀ (sym : Byte) (s : State),
      match inverseTable.getD sym.toNat none with
      | some c => exec (.dec8 sym) s = .next (answered s (zext32 c))
      | none => AnswersNoCode (.dec8 sym) s

/-! ## The group packer -/

/-- 42_group_packer.md R96. -/
def Obligations.Enc12AnswersTwoSymbols : Prop :=
  (∀ (id : BitVec 4) (p : BitVec 8) (s : State),
    exec (.enc12 id p) s = .next (answered s
      (zext32 (rom (id ++ p.extractLsb' 6 2) ++ rom (p.extractLsb' 0 6)))))
  ∧ EncodedAs 0x12 fun a b _ => .enc12 (a.extractLsb' 0 4) (b.extractLsb' 0 8)

/-- 42_group_packer.md R97. -/
def Obligations.Enc18AnswersThreeSymbols : Prop :=
  (∀ (id : BitVec 4) (p : BitVec 14) (s : State),
    exec (.enc18 id p) s = .next (answered s
      (zext32 (rom (id ++ p.extractLsb' 12 2) ++ rom (p.extractLsb' 6 6) ++ rom (p.extractLsb' 0 6)))))
  ∧ EncodedAs 0x13 fun a b _ => .enc18 (a.extractLsb' 0 4) (b.extractLsb' 0 14)

/-- 42_group_packer.md R98. -/
def Obligations.Enc24AnswersFourSymbols : Prop :=
  (∀ (id : BitVec 4) (p : BitVec 20) (s : State),
    exec (.enc24 id p) s = .next (answered s
      (rom (id ++ p.extractLsb' 18 2) ++ rom (p.extractLsb' 12 6) ++ rom (p.extractLsb' 6 6)
        ++ rom (p.extractLsb' 0 6))))
  ∧ EncodedAs 0x14 fun a b _ => .enc24 (a.extractLsb' 0 4) (b.extractLsb' 0 20)

/-- 42_group_packer.md R99, R100: DEC16 of two entries gives their codes; of anything else, `NOCODE`. -/
def Obligations.Dec16AnswersTheCodesOrNoCode : Prop :=
  (∀ (c1 c0 : Code) (s : State),
    exec (.dec16 (rom c1 ++ rom c0)) s = .next (answered s (zext32 (c1 ++ c0))))
  ∧ (∀ (s1 s0 : Byte) (s : State), ¬ (IsEntry s1 ∧ IsEntry s0) → AnswersNoCode (.dec16 (s1 ++ s0)) s)
  ∧ EncodedAs 0x15 fun a _ _ => .dec16 (a.extractLsb' 0 16)

/-- 42_group_packer.md R99, R101. -/
def Obligations.Dec24AnswersTheCodesOrNoCode : Prop :=
  (∀ (c2 c1 c0 : Code) (s : State),
    exec (.dec24 (rom c2 ++ rom c1 ++ rom c0)) s = .next (answered s (zext32 (c2 ++ c1 ++ c0))))
  ∧ (∀ (s2 s1 s0 : Byte) (s : State), ¬ (IsEntry s2 ∧ IsEntry s1 ∧ IsEntry s0) →
    AnswersNoCode (.dec24 (s2 ++ s1 ++ s0)) s)
  ∧ EncodedAs 0x16 fun a _ _ => .dec24 (a.extractLsb' 0 24)

/-- 42_group_packer.md R99, R102. -/
def Obligations.Dec32AnswersTheCodesOrNoCode : Prop :=
  (∀ (c3 c2 c1 c0 : Code) (s : State),
    exec (.dec32 (rom c3 ++ rom c2 ++ rom c1 ++ rom c0)) s
      = .next (answered s (zext32 (c3 ++ c2 ++ c1 ++ c0))))
  ∧ (∀ (s3 s2 s1 s0 : Byte) (s : State), ¬ (IsEntry s3 ∧ IsEntry s2 ∧ IsEntry s1 ∧ IsEntry s0) →
    AnswersNoCode (.dec32 (s3 ++ s2 ++ s1 ++ s0)) s)
  ∧ EncodedAs 0x17 fun a _ _ => .dec32 a

/-- 42_group_packer.md R103: unpacking what was packed returns `id ++ p`, in whatever state each command runs. -/
def Obligations.UnpackingInvertsPacking : Prop :=
  ∀ (id : BitVec 4) (s u : State),
    (∀ p : BitVec 8, ∃ r, exec (.enc12 id p) s = .next (answered s r)
      ∧ exec (.dec16 (r.extractLsb' 0 16)) u = .next (answered u (zext32 (id ++ p))))
    ∧ (∀ p : BitVec 14, ∃ r, exec (.enc18 id p) s = .next (answered s r)
      ∧ exec (.dec24 (r.extractLsb' 0 24)) u = .next (answered u (zext32 (id ++ p))))
    ∧ (∀ p : BitVec 20, ∃ r, exec (.enc24 id p) s = .next (answered s r)
      ∧ exec (.dec32 r) u = .next (answered u (zext32 (id ++ p))))

/-- 42_group_packer.md R105: equal results come from equal operands. -/
def Obligations.PackingIsInjective : Prop :=
  ∀ (id id' : BitVec 4) (s : State),
    (∀ p p', exec (.enc12 id p) s = exec (.enc12 id' p') s → id = id' ∧ p = p')
    ∧ (∀ p p', exec (.enc18 id p) s = exec (.enc18 id' p') s → id = id' ∧ p = p')
    ∧ (∀ p p', exec (.enc24 id p) s = exec (.enc24 id' p') s → id = id' ∧ p = p')

/-! ## The reply encoder -/

/-- 43_reply_encoder.md R110: part A is 0xA3AC, part B the frame of group 2 and the address byte. -/
def Obligations.ShortAddrAnswersThePartOfTheCycle : Prop :=
  (∀ (addr cycle : Byte) (s : State),
    (cycle.toNat % 2 = 0 → exec (.shortAddr addr cycle) s = .next (answered s 0xA3AC))
    ∧ (cycle.toNat % 2 = 1 → exec (.shortAddr addr cycle) s = .next (answered s
        (zext32 (rom ((2 : BitVec 4) ++ addr.extractLsb' 6 2) ++ rom (addr.extractLsb' 0 6))))))
  ∧ EncodedAs 0x18 fun a b _ => .shortAddr (a.extractLsb' 0 8) (b.extractLsb' 0 8)

/-- 43_reply_encoder.md R112: part A carries `0x80 | high[5:0]` in group 1, part B `low` in group 2. -/
def Obligations.LongAddrAnswersThePartOfTheCycle : Prop :=
  (∀ (high low cycle : Byte) (s : State),
    (cycle.toNat % 2 = 0 → exec (.longAddr high low cycle) s = .next (answered s
        (zext32 (rom ((1 : BitVec 4) ++ (2 : BitVec 2)) ++ rom (high.extractLsb' 0 6)))))
    ∧ (cycle.toNat % 2 = 1 → exec (.longAddr high low cycle) s = .next (answered s
        (zext32 (rom ((2 : BitVec 4) ++ low.extractLsb' 6 2) ++ rom (low.extractLsb' 0 6))))))
  ∧ EncodedAs 0x19 fun a b c => .longAddr (a.extractLsb' 0 8) (b.extractLsb' 0 8) (c.extractLsb' 0 8)

/-- 43_reply_encoder.md R111, R113: both address sequences have period 2 in the cycle. -/
def Obligations.AddressBroadcastsHavePeriodTwo : Prop :=
  ∀ (a b cycle : Byte) (s : State),
    exec (.shortAddr a (cycle + 2)) s = exec (.shortAddr a cycle) s
    ∧ exec (.longAddr a b (cycle + 2)) s = exec (.longAddr a b cycle) s

/-- 43_reply_encoder.md R115: the four results of SENTINEL (general knowledge of the spec, log entry 11), and DEC8 of each is
`NOCODE`. -/
def Obligations.SentinelAnswersASymbolOutsideTheTable : Prop :=
  (∀ s : State,
    exec (.sentinel 0) s = .next (answered s 0x0F)
    ∧ exec (.sentinel 1) s = .next (answered s 0xF0)
    ∧ exec (.sentinel 2) s = .next (answered s 0x3C)
    ∧ exec (.sentinel 3) s = .next (answered s 0xE1)
    ∧ AnswersNoCode (.dec8 0x0F) s ∧ AnswersNoCode (.dec8 0xF0) s
    ∧ AnswersNoCode (.dec8 0x3C) s ∧ AnswersNoCode (.dec8 0xE1) s)
  ∧ EncodedAs 0x1A fun a _ _ => .sentinel (a.extractLsb' 0 2)

/-- 43_reply_encoder.md R117, R119: the remaining wait `max(0, offset - ((now - end) mod 2^32))`. -/
def Obligations.CutoutAnswersTheRemainingWait : Prop :=
  (∀ (endTime offset now : Word) (s : State),
    ∃ r : Word, exec (.cutout endTime offset now) s = .next (answered s r)
      ∧ ((r.toNat : Int) = max 0 ((offset.toNat : Int) - ((now.toNat : Int) - endTime.toNat) % 2 ^ 32)))
  ∧ EncodedAs 0x1B .cutout

/-- 43_reply_encoder.md R118: CUTOUT_STD is CUTOUT with the standard offset of the channel, for every admitted parameter
set. -/
def Obligations.CutoutStdAnswersTheStandardChannelWait : Prop :=
  (∀ (endTime now : Word) (s : State), s.params.wf = true →
    ∃ o1 o2 : Word, o1.toNat = s.params.ch1Offset ∧ o2.toNat = s.params.ch2Offset
      ∧ ∃ r1 r2 : Word,
        exec (.cutout endTime o1 now) s = .next (answered s r1)
        ∧ exec (.cutoutStd endTime 0 now) s = .next (answered s r1)
        ∧ exec (.cutout endTime o2 now) s = .next (answered s r2)
        ∧ exec (.cutoutStd endTime 1 now) s = .next (answered s r2))
  ∧ EncodedAs 0x1C fun a b c => .cutoutStd a (b.extractLsb' 0 1) c

/-- 10_state.md R20, 43_reply_encoder.md R121: an encoder command reads and writes no state. Two blocks with the same
parameters answer alike whatever else differs (the free value of `NOCODE` too, when both draw the same one). -/
def Obligations.EncoderCommandsReadAndWriteNoState : Prop :=
  ∀ (i : Instr) (s u : State), EncoderCommand i → s.params = u.params → s.draws = u.draws →
    ∃ r n, exec i s = .next { s with response := some r, draws := n }
      ∧ exec i u = .next { u with response := some r, draws := n }
      ∧ r.st ≠ .illegal ∧ r.r1 = 0 ∧ r.r2 = 0 ∧ r.r3 = 0

/-! ## The consumer's commands -/

/-- 44_bitstream_decoder.md R143, 20_memory.md R52: the fields of READ_PACKET's response, and that nothing else changes. -/
def Obligations.ReadPacketAnswersTheSnapshot : Prop :=
  EncodedAs 0x02 (fun _ _ _ => .readPacket)
  ∧ ∀ s : State, ∃ r : Response, exec .readPacket s = .next { s with response := some r }
    ∧ r.st = .ok
    ∧ (r.r0.extractLsb' 0 8).toNat = s.dec.len.toNat
    ∧ r.r0.extractLsb' 8 8 = s.dec.pktPre
    ∧ r.r0.getLsbD 16 = s.dec.ready
    ∧ (r.r0.extractLsb' 24 2).toNat = (match s.dec.state with
        | .waitPreamble => 0 | .waitStartBit => 1 | .waitData => 2 | .waitEndBit => 3)
    ∧ r.r0.getLsbD 28 = s.dec.level
    ∧ r.r0 &&& 0xECFE0000 = 0
    ∧ r.r1 = s.dec.pktTime
    ∧ (∀ i, i < 4 → r.r2.extractLsb' (8 * i) 8 =
        if i < s.dec.len.toNat ∧ i < s.params.maxLen then bufRead s.dec i else 0)
    ∧ (∀ i, 4 ≤ i → i < 8 → r.r3.extractLsb' (8 * (i - 4)) 8 =
        if i < s.dec.len.toNat ∧ i < s.params.maxLen then bufRead s.dec i else 0)

/-- 70_reset_and_hazards.md R191. -/
def Obligations.ReadPacketAfterResetAnswersZero : Prop :=
  ∀ P : Params, exec .readPacket (State.resetWith P) = .next (answered (State.resetWith P) 0)

/-- 44_bitstream_decoder.md R144: the response of READ_PACKET, then `ready` cleared, and nothing else. -/
def Obligations.ReadClearAnswersTheSnapshotAndClearsReady : Prop :=
  EncodedAs 0x03 (fun _ _ _ => .readClear)
  ∧ ∀ s : State, ∃ r : Response, exec .readPacket s = .next { s with response := some r }
    ∧ exec .readClear s = .next { s with response := some r, dec := { s.dec with ready := false } }

/-- 44_bitstream_decoder.md R145: `ready` is cleared and nothing else. -/
def Obligations.ClearReadyClearsReadyOnly : Prop :=
  (∀ s : State, exec .clearReady s = .next (answered { s with dec := { s.dec with ready := false } } 0))
  ∧ EncodedAs 0x04 fun _ _ _ => .clearReady

/-- 20_memory.md R57: READ_PACKET and CLEAR_READY are idempotent; a second READ_CLEAR answers R0[16] = 0 and otherwise as
the first; an EDGE given twice measures a zero-length interval the second time. -/
def Obligations.ReadsAreIdempotentAsTheRuleSays : Prop :=
  ∀ s : State,
    exec .readPacket (after .readPacket s) = exec .readPacket s
    ∧ exec .clearReady (after .clearReady s) = exec .clearReady s
    ∧ (∃ r r' : Response, (after .readClear s).response = some r
        ∧ (after .readClear (after .readClear s)).response = some r'
        ∧ r'.r0 = r.r0 &&& 0xFFFEFFFF ∧ r'.r1 = r.r1 ∧ r'.r2 = r.r2 ∧ r'.r3 = r.r3 ∧ r'.st = r.st)
    ∧ (∀ now lvl, (after (.edge now lvl) s).dec.primed = true ∧ measured (after (.edge now lvl) s) now = 0)

/-! ## EDGE -/

/-- 44_bitstream_decoder.md R125, R128, R150: EDGE answers `OK` in every state, with every operand; its frame. `ready` is
never cleared, and a byte of the buffer changes only at index `len`. -/
def Obligations.EdgeAlwaysCompletesWithinItsFrame : Prop :=
  EncodedAs 0x01 (fun a b _ => .edge a (b.extractLsb' 0 1))
  ∧ ∀ (s : State) (now : Word) (lvl : BitVec 1), Memory.wf s.dec.buf = true →
    ∃ d, EdgeGives s now lvl d
      ∧ d.level = (lvl = 1) ∧ d.lastT = now ∧ d.primed = true
      ∧ (s.dec.ready = true → d.ready = true)
      ∧ (∀ i, i ≠ s.dec.len.toNat → bufRead d i = bufRead s.dec i)
      ∧ (∀ i, s.params.maxLen ≤ i → bufRead d i = bufRead s.dec i)

/-- 44_bitstream_decoder.md R126. -/
def Obligations.ClassifyFollowsTheBands : Prop :=
  ∀ (P : Params) (d : Word), P.wf = true →
    (classify P d = .valid .one ↔ P.oneMin ≤ d.toNat ∧ d.toNat < P.split)
    ∧ (classify P d = .valid .zero ↔ P.split ≤ d.toNat ∧ d.toNat ≤ P.zeroMax)
    ∧ (classify P d = .invalid ↔ d.toNat < P.oneMin ∨ P.zeroMax < d.toNat)

/-- 44_bitstream_decoder.md R127, at the default parameters. -/
def Obligations.ClassifyAtTheDefaults : Prop :=
  ∀ d : Word,
    (d.toNat ≤ 51 → classify Params.default d = .invalid)
    ∧ (52 ≤ d.toNat → d.toNat ≤ 79 → classify Params.default d = .valid .one)
    ∧ (80 ≤ d.toNat → d.toNat ≤ 10000 → classify Params.default d = .valid .zero)
    ∧ (10001 ≤ d.toNat → classify Params.default d = .invalid)

/-- 44_bitstream_decoder.md R129: the first EDGE after reset only records its time (and its level, R128). -/
def Obligations.FirstEdgeOnlyPrimes : Prop :=
  ∀ (s : State) (now : Word) (lvl : BitVec 1), s.dec.primed = false →
    EdgeGives s now lvl { edged s now lvl with primed := true }

/-- 44_bitstream_decoder.md R132, R133: an `Invalid` interval discards the packet in progress and the waiting half-bit; the
buffer, `len`, `ready` and everything else stay. -/
def Obligations.InvalidIntervalDiscards : Prop :=
  ∀ (s : State) (now : Word) (lvl : BitVec 1), s.dec.primed = true →
    classify s.params (measured s now) = .invalid →
    EdgeGives s now lvl { edged s now lvl with state := .waitPreamble, preCnt := 0, halfPending := false }

/-- 44_bitstream_decoder.md R130: a classified interval with no half-bit waiting is the first half of a bit. -/
def Obligations.FirstHalfWaits : Prop :=
  ∀ (s : State) (now : Word) (lvl : BitVec 1) (c : HalfClass), s.dec.primed = true → s.dec.halfPending = false →
    classify s.params (measured s now) = .valid c →
    EdgeGives s now lvl { edged s now lvl with halfPending := true, halfClass := c }

/-- 44_bitstream_decoder.md R131: a second half of another class discards the packet in progress; under `KeepSecond` it
becomes the first half of the next bit, under `DropBoth` it is dropped. -/
def Obligations.MismatchedHalfDiscards : Prop :=
  ∀ (s : State) (now : Word) (lvl : BitVec 1) (c : HalfClass), s.dec.primed = true → s.dec.halfPending = true →
    classify s.params (measured s now) = .valid c → s.dec.halfClass ≠ c →
    (s.params.mismatchPolicy = .keepSecond → EdgeGives s now lvl
      { edged s now lvl with state := .waitPreamble, preCnt := 0, halfPending := true, halfClass := c })
    ∧ (s.params.mismatchPolicy = .dropBoth → EdgeGives s now lvl
      { edged s now lvl with state := .waitPreamble, preCnt := 0, halfPending := false })

/-- 44_bitstream_decoder.md R135: the preamble counter counts a one-bit and saturates. -/
def Obligations.PreambleOneBitCountsAndSaturates : Prop :=
  ∀ (s : State) (now : Word) (lvl : BitVec 1), s.params.wf = true → ClosesBit s now true →
    s.dec.state = .waitPreamble →
    ∃ n : BitVec 8, n.toNat = min (s.dec.preCnt.toNat + 1) s.params.preambleCap
      ∧ EdgeGives s now lvl { bitReady s now lvl with preCnt := n }

/-- 44_bitstream_decoder.md R136: a zero-bit is the start bit of a fresh packet after at least `P_PREAMBLE_MIN` one-bits, and
otherwise resets the count. -/
def Obligations.PreambleZeroBitStartsOrRestarts : Prop :=
  ∀ (s : State) (now : Word) (lvl : BitVec 1), ClosesBit s now false → s.dec.state = .waitPreamble →
    (s.params.preambleMin ≤ s.dec.preCnt.toNat → EdgeGives s now lvl
      { bitReady s now lvl with
        curPre := s.dec.preCnt, preCnt := 0, len := 0, xorSum := 0, curByte := 0, bitCnt := 0, state := .waitData })
    ∧ (s.dec.preCnt.toNat < s.params.preambleMin → EdgeGives s now lvl { bitReady s now lvl with preCnt := 0 })

/-- 44_bitstream_decoder.md R137: a data bit is shifted in; the eighth completes the byte, which is stored at index `len`
and enters the running exclusive-or, or overflows the buffer and discards the packet. -/
def Obligations.DataBitShiftsAndStores : Prop :=
  ∀ (s : State) (now : Word) (lvl : BitVec 1) (b : Bool) (byte : Byte), ClosesBit s now b → s.dec.state = .waitData →
    byte.toNat = (2 * s.dec.curByte.toNat + b.toNat) % 256 →
    (s.dec.bitCnt.toNat < 7 → EdgeGives s now lvl
      { bitReady s now lvl with curByte := byte, bitCnt := s.dec.bitCnt + 1 })
    ∧ (s.dec.bitCnt = 7 → s.dec.len.toNat = s.params.maxLen → EdgeGives s now lvl
      { bitReady s now lvl with state := .waitPreamble, preCnt := 0 })
    ∧ (s.dec.bitCnt = 7 → s.dec.len.toNat < s.params.maxLen → Memory.wf s.dec.buf = true → ∃ m,
      EdgeGives s now lvl
        { bitReady s now lvl with
          buf := m, len := s.dec.len + 1, xorSum := s.dec.xorSum ^^^ byte, curByte := 0, bitCnt := 0
          state := .waitEndBit }
      ∧ ∀ i, Memory.read m i = if i = s.dec.len.toNat then byte else bufRead s.dec i)

/-- 44_bitstream_decoder.md R138: a zero-bit after a byte means that more bytes follow. -/
def Obligations.EndBitZeroContinuesThePacket : Prop :=
  ∀ (s : State) (now : Word) (lvl : BitVec 1), ClosesBit s now false → s.dec.state = .waitEndBit →
    EdgeGives s now lvl { bitReady s now lvl with curByte := 0, bitCnt := 0, state := .waitData }

/-- 44_bitstream_decoder.md R139, R140: a one-bit after a byte ends the packet; it is published if the running exclusive-or
is 0, and dropped otherwise, with nothing recorded. The preamble count after it is 0, or 1 where the end bit counts. -/
def Obligations.EndBitOnePublishesOrDrops : Prop :=
  ∀ (s : State) (now : Word) (lvl : BitVec 1) (n : BitVec 8), s.params.wf = true → ClosesBit s now true →
    s.dec.state = .waitEndBit → n = (if s.params.endBitInPreamble then 1 else 0) →
    (s.dec.xorSum = 0 → EdgeGives s now lvl
      { bitReady s now lvl with
        ready := true, pktTime := now, pktPre := s.dec.curPre, state := .waitPreamble, preCnt := n })
    ∧ (s.dec.xorSum ≠ 0 → EdgeGives s now lvl { bitReady s now lvl with state := .waitPreamble, preCnt := n })

/-- 44_bitstream_decoder.md R147: the sampled level changes nothing but `level`. -/
def Obligations.LevelInfluencesOnlyLevel : Prop :=
  ∀ (s : State) (now : Word) (lvl lvl' : BitVec 1) (b : Bool),
    ∃ d, EdgeGives s now lvl d
      ∧ EdgeGives { s with dec := { s.dec with level := b } } now lvl' { d with level := lvl' = 1 }

/-- 60_exceptions.md R171, R174: one EDGE takes at most one of E1 to E4, each under its own condition; the label of
a transition is the model's form (log entry 14). -/
def Obligations.EdgeTakesEachCauseUnderItsCondition : Prop :=
  ∀ (s : State) (now : Word) (lvl : BitVec 1),
    (s.dec.primed = false → (edgeTransition s.params now (lvl = 1) s.dec).2 = none)
    ∧ (s.dec.primed = true → ∃ cause, (edgeTransition s.params now (lvl = 1) s.dec).2 = cause
      ∧ (cause = some .e1 ↔ classify s.params (measured s now) = .invalid)
      ∧ (cause = some .e2 ↔ s.dec.halfPending = true
          ∧ ∃ c, classify s.params (measured s now) = .valid c ∧ s.dec.halfClass ≠ c)
      ∧ (cause = some .e3 ↔ s.dec.state = .waitData ∧ s.dec.bitCnt = 7 ∧ s.params.maxLen ≤ s.dec.len.toNat
          ∧ ∃ b, ClosesBit s now b)
      ∧ (cause = some .e4 ↔ s.dec.state = .waitEndBit ∧ s.dec.xorSum ≠ 0 ∧ ClosesBit s now true)
      ∧ cause ≠ some .e5 ∧ cause ≠ some .e6)

/-- 10_state.md R21, 44_bitstream_decoder.md R125: only EDGE changes the decoder, but for the clear of `ready` by READ_CLEAR and
CLEAR_READY. -/
def Obligations.OnlyEdgeMovesTheDecoder : Prop :=
  (∀ (i : Instr) (s : State), (∀ now lvl, i ≠ .edge now lvl) →
    ∃ t, exec i s = .next t ∧ t.params = s.params
      ∧ (t.dec = s.dec ∨ ((i = .readClear ∨ i = .clearReady) ∧ t.dec = { s.dec with ready := false })))
  ∧ ∀ (s : State) (now : Word) (lvl : BitVec 1), ∃ t, exec (.edge now lvl) s = .next t ∧ t.params = s.params
      ∧ (s.dec.ready = true → t.dec.ready = true)

/-! ## The decoder as a whole -/

/-- 10_state.md R42, with what the buffer, the running exclusive-or and the recorded preamble lengths mean: every step keeps
the invariant. -/
def Obligations.EveryStepKeepsTheInvariant : Prop := ∀ s : State, BlockInv s → SafeOutcome (step s)

/-- 10_state.md R42, R43: the invariant holds after reset, with every admitted parameter set. -/
def Obligations.InvariantHoldsAfterReset : Prop := ∀ P : Params, P.wf = true → BlockInv (State.resetWith P)

/-- 44_bitstream_decoder.md R148: `ready` rises exactly at an end bit that follows bytes whose exclusive-or, the checksum byte
included, is 0; that is, when the last byte equals the exclusive-or of the bytes before it. -/
def Obligations.ReadyRisesExactlyOnAValidChecksum : Prop :=
  ∀ (s : State) (now : Word) (lvl : BitVec 1), BlockInv s → s.dec.ready = false →
    ∃ d, EdgeGives s now lvl d
      ∧ (d.ready = true ↔ ClosesBit s now true ∧ s.dec.state = .waitEndBit
          ∧ (List.range s.dec.len.toNat).foldl (fun x i => x ^^^ bufRead s.dec i) 0 = 0)
      ∧ (d.ready = true ↔ ClosesBit s now true ∧ s.dec.state = .waitEndBit
          ∧ bufRead s.dec (s.dec.len.toNat - 1)
            = (List.range (s.dec.len.toNat - 1)).foldl (fun x i => x ^^^ bufRead s.dec i) 0)

/-- 20_memory.md R51, 44_bitstream_decoder.md R137: the eight bits of a byte, most-significant first, store that byte. -/
def Obligations.EightBitsStoreTheirByte : Prop :=
  ∀ (s : State) (es : List (Word × BitVec 1)) (v : Byte), BlockInv s → BetweenBits s →
    s.dec.state = .waitData → s.dec.bitCnt = 0 → s.dec.len.toNat < s.params.maxLen →
    Carries s es (bitsOfByte v) →
    (afterEdges s es).dec.state = .waitEndBit
      ∧ (afterEdges s es).dec.len.toNat = s.dec.len.toNat + 1
      ∧ (afterEdges s es).dec.xorSum = s.dec.xorSum ^^^ v
      ∧ (∀ i, bufRead (afterEdges s es).dec i = if i = s.dec.len.toNat then v else bufRead s.dec i)
      ∧ (afterEdges s es).dec.ready = s.dec.ready

/-- 44_bitstream_decoder.md R149: a preamble that reaches `P_PREAMBLE_MIN`, a start bit, one to `P_MAX_LEN` bytes framed by zero-bits and
an end bit, in half-bits of any length in their bands: the packet is delivered if the exclusive-or of its bytes is 0, and dropped
if not. -/
def Obligations.AWellFramedPacketIsDelivered : Prop :=
  ∀ (s : State) (es : List (Word × BitVec 1)) (p : Nat) (bytes : List Byte) (e : Word × BitVec 1),
    BlockInv s → BetweenBits s → s.dec.state = .waitPreamble →
    s.params.preambleMin ≤ s.dec.preCnt.toNat + p → 1 ≤ bytes.length → bytes.length ≤ s.params.maxLen →
    Carries s (es ++ [e]) (bitsOfPacket p bytes) →
    (afterEdges s (es ++ [e])).dec.state = .waitPreamble
    ∧ (afterEdges s (es ++ [e])).dec.len.toNat = bytes.length
    ∧ (∀ i v, bytes[i]? = some v → bufRead (afterEdges s (es ++ [e])).dec i = v)
    ∧ (bytes.foldl (fun x v => x ^^^ v) 0 = 0 →
        (afterEdges s (es ++ [e])).dec.ready = true
        ∧ (afterEdges s (es ++ [e])).dec.pktTime = e.1
        ∧ (afterEdges s (es ++ [e])).dec.pktPre.toNat = min (s.dec.preCnt.toNat + p) s.params.preambleCap)
    ∧ (bytes.foldl (fun x v => x ^^^ v) 0 ≠ 0 →
        (afterEdges s (es ++ [e])).dec.ready = s.dec.ready
        ∧ (afterEdges s (es ++ [e])).dec.pktTime = s.dec.pktTime
        ∧ (afterEdges s (es ++ [e])).dec.pktPre = s.dec.pktPre)

/-- 44_bitstream_decoder.md R149, the other direction, for every rise of `ready`: in a run of any commands from a state that
meets the invariant, in `WaitPreamble` with no half-bit waiting (as after reset), an EDGE that raises `ready` ends EDGEs that
carried a start bit, one to `P_MAX_LEN` bytes framed by zero-bits whose exclusive-or is 0, and an end bit, with nothing invalid or
mismatched in between, to a decoder that had counted enough one-bits; and the packet registers hold that packet. The commands
between the EDGEs may clear `ready` at any point. -/
def Obligations.ReadyRisesOnlyAfterAWellFramedPacket : Prop :=
  ∀ (s : State) (cmds : List Instr) (now : Word) (lvl : BitVec 1), BlockInv s →
    s.dec.state = .waitPreamble → s.dec.halfPending = false →
    (afterAll s cmds).dec.ready = false →
    (afterAll s (cmds ++ [.edge now lvl])).dec.ready = true →
    ∃ (before packet : List (Word × BitVec 1)) (bytes : List Byte), edgesIn cmds ++ [(now, lvl)] = before ++ packet
      ∧ BetweenBits (afterEdges s before)
      ∧ (afterEdges s before).dec.state = .waitPreamble
      ∧ s.params.preambleMin ≤ (afterEdges s before).dec.preCnt.toNat
      ∧ Carries (afterEdges s before) packet (bitsOfPacket 0 bytes)
      ∧ 1 ≤ bytes.length ∧ bytes.length ≤ s.params.maxLen ∧ bytes.foldl (fun x v => x ^^^ v) 0 = 0
      ∧ (afterAll s (cmds ++ [.edge now lvl])).dec.len.toNat = bytes.length
      ∧ (∀ i v, bytes[i]? = some v → bufRead (afterAll s (cmds ++ [.edge now lvl])).dec i = v)
      ∧ (afterAll s (cmds ++ [.edge now lvl])).dec.pktTime = now
      ∧ (afterAll s (cmds ++ [.edge now lvl])).dec.pktPre = (afterEdges s before).dec.preCnt

/-- 70_reset_and_hazards.md R195: after reset `ready` rises no earlier than the EDGE numbered
`1 + 2(P_PREAMBLE_MIN + 1 + 9n)` for an `n`-byte packet, so never before the EDGE numbered `1 + 2(P_PREAMBLE_MIN + 1 + 9)`. -/
def Obligations.ReadyRisesNoEarlierThanTheRuleSays : Prop :=
  ∀ (P : Params) (es : List (Word × BitVec 1)) (e : Word × BitVec 1), P.wf = true →
    (afterEdges (State.resetWith P) es).dec.ready = false →
    (afterEdges (State.resetWith P) (es ++ [e])).dec.ready = true →
    1 + 2 * (P.preambleMin + 1 + 9 * (afterEdges (State.resetWith P) (es ++ [e])).dec.len.toNat) ≤ (es ++ [e]).length
    ∧ 1 + 2 * (P.preambleMin + 1 + 9) ≤ (es ++ [e]).length

/-- 70_reset_and_hazards.md R196: once `ready` rises, the packet and its registers stay until the next start bit, which takes at
least `2(P_PREAMBLE_MIN + 1)` EDGEs, or `2 P_PREAMBLE_MIN` where the end bit counts for the next preamble. -/
def Obligations.PacketStaysForTheOverwriteWindow : Prop :=
  ∀ (s : State) (e : Word × BitVec 1) (es : List (Word × BitVec 1)), s.params.wf = true →
    s.dec.ready = false → (after (.edge e.1 e.2) s).dec.ready = true →
    es.length < (if s.params.endBitInPreamble then 2 * s.params.preambleMin else 2 * (s.params.preambleMin + 1)) →
    (afterEdges (after (.edge e.1 e.2) s) es).dec.state = .waitPreamble
    ∧ (afterEdges (after (.edge e.1 e.2) s) es).dec.buf = (after (.edge e.1 e.2) s).dec.buf
    ∧ (afterEdges (after (.edge e.1 e.2) s) es).dec.len = (after (.edge e.1 e.2) s).dec.len
    ∧ (afterEdges (after (.edge e.1 e.2) s) es).dec.pktTime = (after (.edge e.1 e.2) s).dec.pktTime
    ∧ (afterEdges (after (.edge e.1 e.2) s) es).dec.pktPre = (after (.edge e.1 e.2) s).dec.pktPre
    ∧ (afterEdges (after (.edge e.1 e.2) s) es).dec.ready = true

/-- 30_encoding.md R79: a `PACKET p, b0, ..., bm` expands to `2(p + 1 + 9(m + 1))` EDGE commands, and `.time` adds one. -/
def Obligations.PacketLineExpandsToItsEdges : Prop :=
  ∀ (c : AsmCursor) (p : Nat) (bytes : List Byte) (t : Word), 1 ≤ bytes.length →
    ∃ c' cws, assemble c [.time t, .packet p bytes] = some (encode (.edge t (BitVec.ofBool c.level)) :: cws)
      ∧ asmItem { c with time := t } (.packet p bytes) = some (c', cws)
      ∧ cws.length = 2 * (p + 1 + 9 * bytes.length)
      ∧ ∀ cw, cw ∈ cws → ∃ now lvl, decode cw = .ok (.edge now lvl)
end

