-- ==== Sys2Proof/Laws/Decode.lean ====
section
/-! SUPPORT. The fields of an assembled command word, and slices of placed operands. -/

namespace Sys2Proof

/-- Bit `i` of `OP ++ A ++ B ++ C`. -/
theorem getLsbD_mkCmdWord (op : Byte) (a b c : Word) (i : Nat) :
    (mkCmdWord op a b c).getLsbD i =
      if i < 32 then c.getLsbD i else if i < 64 then b.getLsbD (i - 32)
      else if i < 96 then a.getLsbD (i - 64) else op.getLsbD (i - 96) := by
  change BitVec.getLsbD (w := 8 + 32 + 32 + 32) (op ++ a ++ b ++ c) i = _
  rw [BitVec.getLsbD_append, BitVec.getLsbD_append, BitVec.getLsbD_append, Nat.sub_sub, Nat.sub_sub]
  grind

@[simp] theorem opField_mkCmdWord (op : Byte) (a b c : Word) : opField (mkCmdWord op a b c) = op := by
  ext i hi
  simp [opField, getLsbD_mkCmdWord]
  grind

@[simp] theorem aField_mkCmdWord (op : Byte) (a b c : Word) : aField (mkCmdWord op a b c) = a := by
  ext i hi
  simp [aField, getLsbD_mkCmdWord]
  grind

@[simp] theorem bField_mkCmdWord (op : Byte) (a b c : Word) : bField (mkCmdWord op a b c) = b := by
  ext i hi
  simp [bField, getLsbD_mkCmdWord]
  grind

@[simp] theorem cField_mkCmdWord (op : Byte) (a b c : Word) : cField (mkCmdWord op a b c) = c := by
  ext i hi
  simp [cField, getLsbD_mkCmdWord, hi]

/-- A command word is its four fields. -/
theorem mkCmdWord_fields (cw : CmdWord) : mkCmdWord (opField cw) (aField cw) (bField cw) (cField cw) = cw := by
  apply BitVec.eq_of_getLsbD_eq
  intro i hi
  rw [getLsbD_mkCmdWord]
  simp only [opField, aField, bField, cField, BitVec.getLsbD_extractLsb']
  grind

/-- A slice of a placed operand is the operand. -/
theorem slice_place {n : Nat} (h : n ≤ 32) (v : BitVec n) : slice n (place v) = v := by
  ext i hi
  simp [slice, place, hi]
  omega

end Sys2Proof
end

