-- ==== Sys2Proof/Laws/Memory.lean ====
section
/-! SUPPORT. The laws of the indexed byte store: reading after writing, and the canonical form. -/

namespace Sys2Proof.Machine

@[simp] theorem Memory.read_nil (i : Nat) : Memory.read [] i = unwritten := rfl

@[simp] theorem Memory.wf_nil : Memory.wf [] = true := rfl

theorem Memory.read_cons (c : Host.Cell) (m : Memory) (i : Nat) :
    Memory.read (c :: m) i = if c.1 = i then c.2 else Memory.read m i := rfl

theorem Memory.wf_cons (c : Host.Cell) (m : Memory) :
    Memory.wf (c :: m) = true ↔ c.2 ≠ unwritten ∧ (∀ e ∈ m, c.1 < e.1) ∧ Memory.wf m = true := by
  simp [Memory.wf, and_assoc]

/-- An index below every listed one reads as unwritten. -/
theorem Memory.read_below (m : Memory) (i : Nat) (h : ∀ e ∈ m, i < e.1) : Memory.read m i = unwritten := by
  induction m with
  | nil => rfl
  | cons c m ih =>
    have hc := h c (by simp)
    rw [Memory.read_cons, if_neg (by omega), ih fun e he => h e (by simp [he])]

theorem Memory.read_put (m : Memory) (i j : Nat) (v : Byte) (h : ∀ e ∈ m, i < e.1) :
    Memory.read (Memory.put i v m) j = if j = i then v else Memory.read m j := by
  unfold Memory.put
  by_cases hv : v = unwritten
  · by_cases hj : j = i
    · simp [hv, hj, Memory.read_below m i h]
    · simp [hv, hj]
  · by_cases hj : j = i
    · simp [hv, hj, Memory.read_cons]
    · simp [hv, hj, Memory.read_cons, Ne.symm hj]

theorem Memory.wf_put (m : Memory) (i : Nat) (v : Byte) (h : ∀ e ∈ m, i < e.1) (hm : Memory.wf m = true) :
    Memory.wf (Memory.put i v m) = true := by
  unfold Memory.put
  split
  · exact hm
  · exact (Memory.wf_cons _ _).2 ⟨‹_›, h, hm⟩

theorem Memory.mem_put (m : Memory) (i : Nat) (v : Byte) (e : Host.Cell) (he : e ∈ Memory.put i v m) :
    e.1 = i ∨ e ∈ m := by
  unfold Memory.put at he
  split at he
  · exact .inr he
  · rcases List.mem_cons.1 he with rfl | he
    · exact .inl rfl
    · exact .inr he

/-- A write lists no index but its own and those listed before. -/
theorem Memory.mem_write (m : Memory) (i : Nat) (v : Byte) (e : Host.Cell) (he : e ∈ Memory.write m i v) :
    e.1 = i ∨ e ∈ m := by
  induction m with
  | nil => exact Memory.mem_put _ _ _ _ he
  | cons c m ih =>
    unfold Memory.write at he
    split at he
    · exact Memory.mem_put _ _ _ _ he
    · split at he
      · exact (Memory.mem_put _ _ _ _ he).imp id fun h => by simp [h]
      · rcases List.mem_cons.1 he with rfl | he
        · simp
        · exact (ih he).imp id fun h => by simp [h]

/-- A write keeps the canonical form. -/
theorem Memory.wf_write (m : Memory) (i : Nat) (v : Byte) (hm : Memory.wf m = true) :
    Memory.wf (Memory.write m i v) = true := by
  induction m with
  | nil => exact Memory.wf_put [] i v (by simp) rfl
  | cons c m ih =>
    obtain ⟨hc, hlt, hm'⟩ := (Memory.wf_cons _ _).1 hm
    unfold Memory.write
    split
    · refine Memory.wf_put _ _ _ (fun e he => ?_) hm
      rcases List.mem_cons.1 he with rfl | he
      · assumption
      · have := hlt e he; omega
    · split
      · exact Memory.wf_put _ _ _ (fun e he => by have := hlt e he; omega) hm'
      · refine (Memory.wf_cons _ _).2 ⟨hc, fun e he => ?_, ih hm'⟩
        rcases Memory.mem_write _ _ _ _ he with h | h
        · omega
        · exact hlt e h

/-- Reading after a write: the value written at its index, and what stood there before anywhere else. -/
theorem Memory.read_write (m : Memory) (i j : Nat) (v : Byte) (hm : Memory.wf m = true) :
    Memory.read (Memory.write m i v) j = if j = i then v else Memory.read m j := by
  induction m with
  | nil => simpa [Memory.write] using Memory.read_put [] i j v (by simp)
  | cons c m ih =>
    obtain ⟨-, hlt, hm'⟩ := (Memory.wf_cons _ _).1 hm
    unfold Memory.write
    split
    · refine Memory.read_put _ _ _ _ fun e he => ?_
      rcases List.mem_cons.1 he with rfl | he
      · assumption
      · have := hlt e he; omega
    · split
      · rw [Memory.read_put _ _ _ _ fun e he => by have := hlt e he; omega, Memory.read_cons]
        by_cases hj : j = i
        · simp [hj]
        · rw [if_neg hj, if_neg hj, if_neg (by omega)]
      · rw [Memory.read_cons, Memory.read_cons, ih hm']
        by_cases hj : j = i
        · subst hj; simp; omega
        · simp [hj]

/-- Two stores in canonical form that read alike are equal. -/
theorem Memory.ext (m n : Memory) (hm : Memory.wf m = true) (hn : Memory.wf n = true)
    (h : ∀ i, Memory.read m i = Memory.read n i) : m = n := by
  induction m generalizing n with
  | nil =>
    cases n with
    | nil => rfl
    | cons c n =>
      have := h c.1
      rw [Memory.read_cons, if_pos rfl] at this
      exact absurd this.symm ((Memory.wf_cons _ _).1 hn).1
  | cons c m ih =>
    obtain ⟨hc, hclt, hm'⟩ := (Memory.wf_cons _ _).1 hm
    cases n with
    | nil =>
      have := h c.1
      rw [Memory.read_cons, if_pos rfl] at this
      exact absurd this hc
    | cons e n =>
      obtain ⟨he, helt, hn'⟩ := (Memory.wf_cons _ _).1 hn
      have below (a : Host.Cell) (l : Memory) (hl : ∀ x ∈ l, a.1 < x.1) (k : Nat) (hk : k < a.1) :
          Memory.read (a :: l) k = unwritten := by
        rw [Memory.read_cons, if_neg (by omega), Memory.read_below l k fun x hx => by have := hl x hx; omega]
      have key : c.1 = e.1 := by
        rcases Nat.lt_trichotomy c.1 e.1 with hlt | heq | hgt
        · have := h c.1
          rw [below e n helt _ hlt, Memory.read_cons, if_pos rfl] at this
          exact absurd this hc
        · exact heq
        · have := h e.1
          rw [below c m hclt _ hgt, Memory.read_cons, if_pos rfl] at this
          exact absurd this.symm he
      have val : c.2 = e.2 := by
        have := h c.1
        rwa [Memory.read_cons, if_pos rfl, Memory.read_cons, if_pos key.symm] at this
      obtain rfl : c = e := Prod.ext key val
      rw [ih n hm' hn' fun i => ?_]
      by_cases hi : c.1 = i
      · subst hi; rw [Memory.read_below m _ hclt, Memory.read_below n _ helt]
      · have := h i; rwa [Memory.read_cons, if_neg hi, Memory.read_cons, if_neg hi] at this

/-- Reading the packet buffer after a byte is written to it. -/
theorem bufRead_bufWrite (d : Decoder) (i j : Nat) (v : Byte) (h : Memory.wf d.buf = true) :
    bufRead (bufWrite i v d) j = if j = i then v else bufRead d j := Memory.read_write d.buf i j v h

end Sys2Proof.Machine
end

