-- ==== Sys2Proof/Laws/PerInstr.lean ====
section
/-! SUPPORT. Laws made once per instruction: each command's word carries its row's opcode, and 0 in every operand
word that the row's format leaves unused (30_encoding.md R69, R71, R77). -/

namespace Sys2Proof.Laws.OpcodeField

/-- The command's word is one of its row of the opcode map. -/
def Statement (i : Instr) : Prop :=
  ∃ row, row ∈ opcodeRows
    ∧ opField (encode i) = row.op
    ∧ (row.format = .n → aField (encode i) = 0)
    ∧ (row.format = .n ∨ row.format = .a → bField (encode i) = 0)
    ∧ (row.format ≠ .abc → cField (encode i) = 0)

theorem edge (now : Word) (lvl : BitVec 1) : Statement (.edge now lvl) :=
  ⟨⟨"EDGE", 0x01, .ab⟩, by decide, by simp [encode]⟩

theorem readPacket : Statement .readPacket :=
  ⟨⟨"READ_PACKET", 0x02, .n⟩, by decide, by simp [encode]⟩

theorem readClear : Statement .readClear :=
  ⟨⟨"READ_CLEAR", 0x03, .n⟩, by decide, by simp [encode]⟩

theorem clearReady : Statement .clearReady :=
  ⟨⟨"CLEAR_READY", 0x04, .n⟩, by decide, by simp [encode]⟩

theorem enc6 (v : Byte) : Statement (.enc6 v) :=
  ⟨⟨"ENC6", 0x10, .a⟩, by decide, by simp [encode]⟩

theorem dec8 (sym : Byte) : Statement (.dec8 sym) :=
  ⟨⟨"DEC8", 0x11, .a⟩, by decide, by simp [encode]⟩

theorem enc12 (id : BitVec 4) (p : BitVec 8) : Statement (.enc12 id p) :=
  ⟨⟨"ENC12", 0x12, .ab⟩, by decide, by simp [encode]⟩

theorem enc18 (id : BitVec 4) (p : BitVec 14) : Statement (.enc18 id p) :=
  ⟨⟨"ENC18", 0x13, .ab⟩, by decide, by simp [encode]⟩

theorem enc24 (id : BitVec 4) (p : BitVec 20) : Statement (.enc24 id p) :=
  ⟨⟨"ENC24", 0x14, .ab⟩, by decide, by simp [encode]⟩

theorem dec16 (syms : BitVec 16) : Statement (.dec16 syms) :=
  ⟨⟨"DEC16", 0x15, .a⟩, by decide, by simp [encode]⟩

theorem dec24 (syms : BitVec 24) : Statement (.dec24 syms) :=
  ⟨⟨"DEC24", 0x16, .a⟩, by decide, by simp [encode]⟩

theorem dec32 (syms : BitVec 32) : Statement (.dec32 syms) :=
  ⟨⟨"DEC32", 0x17, .a⟩, by decide, by simp [encode]⟩

theorem shortAddr (addr cycle : Byte) : Statement (.shortAddr addr cycle) :=
  ⟨⟨"SHORTADDR", 0x18, .ab⟩, by decide, by simp [encode]⟩

theorem longAddr (high low cycle : Byte) : Statement (.longAddr high low cycle) :=
  ⟨⟨"LONGADDR", 0x19, .abc⟩, by decide, by simp [encode]⟩

theorem sentinel (sel : BitVec 2) : Statement (.sentinel sel) :=
  ⟨⟨"SENTINEL", 0x1A, .a⟩, by decide, by simp [encode]⟩

theorem cutout (endTime offset now : Word) : Statement (.cutout endTime offset now) :=
  ⟨⟨"CUTOUT", 0x1B, .abc⟩, by decide, by simp [encode]⟩

theorem cutoutStd (endTime : Word) (ch : BitVec 1) (now : Word) : Statement (.cutoutStd endTime ch now) :=
  ⟨⟨"CUTOUT_STD", 0x1C, .abc⟩, by decide, by simp [encode]⟩

end Sys2Proof.Laws.OpcodeField
end

