-- ==== Sys2Proof/Laws/State.lean ====
section
/-! SUPPORT. What each named update of the decoder and of the state leaves in each field. -/

namespace Sys2Proof.Machine

/-! ## The decoder -/

@[simp] theorem clearReadyFlag_state (d : Decoder) : (clearReadyFlag d).state = d.state := rfl
@[simp] theorem clearReadyFlag_preCnt (d : Decoder) : (clearReadyFlag d).preCnt = d.preCnt := rfl
@[simp] theorem clearReadyFlag_curPre (d : Decoder) : (clearReadyFlag d).curPre = d.curPre := rfl
@[simp] theorem clearReadyFlag_primed (d : Decoder) : (clearReadyFlag d).primed = d.primed := rfl
@[simp] theorem clearReadyFlag_lastT (d : Decoder) : (clearReadyFlag d).lastT = d.lastT := rfl
@[simp] theorem clearReadyFlag_level (d : Decoder) : (clearReadyFlag d).level = d.level := rfl
@[simp] theorem clearReadyFlag_halfPending (d : Decoder) : (clearReadyFlag d).halfPending = d.halfPending := rfl
@[simp] theorem clearReadyFlag_halfClass (d : Decoder) : (clearReadyFlag d).halfClass = d.halfClass := rfl
@[simp] theorem clearReadyFlag_bitCnt (d : Decoder) : (clearReadyFlag d).bitCnt = d.bitCnt := rfl
@[simp] theorem clearReadyFlag_curByte (d : Decoder) : (clearReadyFlag d).curByte = d.curByte := rfl
@[simp] theorem clearReadyFlag_xorSum (d : Decoder) : (clearReadyFlag d).xorSum = d.xorSum := rfl
@[simp] theorem clearReadyFlag_buf (d : Decoder) : (clearReadyFlag d).buf = d.buf := rfl
@[simp] theorem clearReadyFlag_len (d : Decoder) : (clearReadyFlag d).len = d.len := rfl
@[simp] theorem clearReadyFlag_ready (d : Decoder) : (clearReadyFlag d).ready = false := rfl
@[simp] theorem clearReadyFlag_pktTime (d : Decoder) : (clearReadyFlag d).pktTime = d.pktTime := rfl
@[simp] theorem clearReadyFlag_pktPre (d : Decoder) : (clearReadyFlag d).pktPre = d.pktPre := rfl

@[simp] theorem publishPacket_state (now : Word) (d : Decoder) : (publishPacket now d).state = d.state := rfl
@[simp] theorem publishPacket_preCnt (now : Word) (d : Decoder) : (publishPacket now d).preCnt = d.preCnt := rfl
@[simp] theorem publishPacket_curPre (now : Word) (d : Decoder) : (publishPacket now d).curPre = d.curPre := rfl
@[simp] theorem publishPacket_primed (now : Word) (d : Decoder) : (publishPacket now d).primed = d.primed := rfl
@[simp] theorem publishPacket_lastT (now : Word) (d : Decoder) : (publishPacket now d).lastT = d.lastT := rfl
@[simp] theorem publishPacket_level (now : Word) (d : Decoder) : (publishPacket now d).level = d.level := rfl
@[simp] theorem publishPacket_halfPending (now : Word) (d : Decoder) : (publishPacket now d).halfPending = d.halfPending := rfl
@[simp] theorem publishPacket_halfClass (now : Word) (d : Decoder) : (publishPacket now d).halfClass = d.halfClass := rfl
@[simp] theorem publishPacket_bitCnt (now : Word) (d : Decoder) : (publishPacket now d).bitCnt = d.bitCnt := rfl
@[simp] theorem publishPacket_curByte (now : Word) (d : Decoder) : (publishPacket now d).curByte = d.curByte := rfl
@[simp] theorem publishPacket_xorSum (now : Word) (d : Decoder) : (publishPacket now d).xorSum = d.xorSum := rfl
@[simp] theorem publishPacket_buf (now : Word) (d : Decoder) : (publishPacket now d).buf = d.buf := rfl
@[simp] theorem publishPacket_len (now : Word) (d : Decoder) : (publishPacket now d).len = d.len := rfl
@[simp] theorem publishPacket_ready (now : Word) (d : Decoder) : (publishPacket now d).ready = true := rfl
@[simp] theorem publishPacket_pktTime (now : Word) (d : Decoder) : (publishPacket now d).pktTime = now := rfl
@[simp] theorem publishPacket_pktPre (now : Word) (d : Decoder) : (publishPacket now d).pktPre = d.curPre := rfl

@[simp] theorem bufWrite_state (i : Nat) (v : Byte) (d : Decoder) : (bufWrite i v d).state = d.state := rfl
@[simp] theorem bufWrite_preCnt (i : Nat) (v : Byte) (d : Decoder) : (bufWrite i v d).preCnt = d.preCnt := rfl
@[simp] theorem bufWrite_curPre (i : Nat) (v : Byte) (d : Decoder) : (bufWrite i v d).curPre = d.curPre := rfl
@[simp] theorem bufWrite_primed (i : Nat) (v : Byte) (d : Decoder) : (bufWrite i v d).primed = d.primed := rfl
@[simp] theorem bufWrite_lastT (i : Nat) (v : Byte) (d : Decoder) : (bufWrite i v d).lastT = d.lastT := rfl
@[simp] theorem bufWrite_level (i : Nat) (v : Byte) (d : Decoder) : (bufWrite i v d).level = d.level := rfl
@[simp] theorem bufWrite_halfPending (i : Nat) (v : Byte) (d : Decoder) : (bufWrite i v d).halfPending = d.halfPending := rfl
@[simp] theorem bufWrite_halfClass (i : Nat) (v : Byte) (d : Decoder) : (bufWrite i v d).halfClass = d.halfClass := rfl
@[simp] theorem bufWrite_bitCnt (i : Nat) (v : Byte) (d : Decoder) : (bufWrite i v d).bitCnt = d.bitCnt := rfl
@[simp] theorem bufWrite_curByte (i : Nat) (v : Byte) (d : Decoder) : (bufWrite i v d).curByte = d.curByte := rfl
@[simp] theorem bufWrite_xorSum (i : Nat) (v : Byte) (d : Decoder) : (bufWrite i v d).xorSum = d.xorSum := rfl
@[simp] theorem bufWrite_buf (i : Nat) (v : Byte) (d : Decoder) : (bufWrite i v d).buf = Memory.write d.buf i v := rfl
@[simp] theorem bufWrite_len (i : Nat) (v : Byte) (d : Decoder) : (bufWrite i v d).len = d.len := rfl
@[simp] theorem bufWrite_ready (i : Nat) (v : Byte) (d : Decoder) : (bufWrite i v d).ready = d.ready := rfl
@[simp] theorem bufWrite_pktTime (i : Nat) (v : Byte) (d : Decoder) : (bufWrite i v d).pktTime = d.pktTime := rfl
@[simp] theorem bufWrite_pktPre (i : Nat) (v : Byte) (d : Decoder) : (bufWrite i v d).pktPre = d.pktPre := rfl

@[simp] theorem discardPacket_cause (c : Cause) (d : Decoder) : (discardPacket c d).2 = some c := rfl
@[simp] theorem discardPacket_state (c : Cause) (d : Decoder) : (discardPacket c d).1.state = .waitPreamble := rfl
@[simp] theorem discardPacket_preCnt (c : Cause) (d : Decoder) : (discardPacket c d).1.preCnt = 0 := rfl
@[simp] theorem discardPacket_curPre (c : Cause) (d : Decoder) : (discardPacket c d).1.curPre = d.curPre := rfl
@[simp] theorem discardPacket_primed (c : Cause) (d : Decoder) : (discardPacket c d).1.primed = d.primed := rfl
@[simp] theorem discardPacket_lastT (c : Cause) (d : Decoder) : (discardPacket c d).1.lastT = d.lastT := rfl
@[simp] theorem discardPacket_level (c : Cause) (d : Decoder) : (discardPacket c d).1.level = d.level := rfl
@[simp] theorem discardPacket_halfPending (c : Cause) (d : Decoder) : (discardPacket c d).1.halfPending = false := rfl
@[simp] theorem discardPacket_halfClass (c : Cause) (d : Decoder) : (discardPacket c d).1.halfClass = d.halfClass := rfl
@[simp] theorem discardPacket_bitCnt (c : Cause) (d : Decoder) : (discardPacket c d).1.bitCnt = d.bitCnt := rfl
@[simp] theorem discardPacket_curByte (c : Cause) (d : Decoder) : (discardPacket c d).1.curByte = d.curByte := rfl
@[simp] theorem discardPacket_xorSum (c : Cause) (d : Decoder) : (discardPacket c d).1.xorSum = d.xorSum := rfl
@[simp] theorem discardPacket_buf (c : Cause) (d : Decoder) : (discardPacket c d).1.buf = d.buf := rfl
@[simp] theorem discardPacket_len (c : Cause) (d : Decoder) : (discardPacket c d).1.len = d.len := rfl
@[simp] theorem discardPacket_ready (c : Cause) (d : Decoder) : (discardPacket c d).1.ready = d.ready := rfl
@[simp] theorem discardPacket_pktTime (c : Cause) (d : Decoder) : (discardPacket c d).1.pktTime = d.pktTime := rfl
@[simp] theorem discardPacket_pktPre (c : Cause) (d : Decoder) : (discardPacket c d).1.pktPre = d.pktPre := rfl

@[simp] theorem quiet_cause (d : Decoder) : (quiet d).2 = none := rfl
@[simp] theorem quiet_decoder (d : Decoder) : (quiet d).1 = d := rfl

@[simp] theorem countPreamble_state (P : Params) (d : Decoder) : (countPreamble P d).state = d.state := rfl
@[simp] theorem countPreamble_preCnt (P : Params) (d : Decoder) : (countPreamble P d).preCnt = BitVec.ofNat 8 (min (d.preCnt.toNat + 1) P.preambleCap) := rfl
@[simp] theorem countPreamble_curPre (P : Params) (d : Decoder) : (countPreamble P d).curPre = d.curPre := rfl
@[simp] theorem countPreamble_primed (P : Params) (d : Decoder) : (countPreamble P d).primed = d.primed := rfl
@[simp] theorem countPreamble_lastT (P : Params) (d : Decoder) : (countPreamble P d).lastT = d.lastT := rfl
@[simp] theorem countPreamble_level (P : Params) (d : Decoder) : (countPreamble P d).level = d.level := rfl
@[simp] theorem countPreamble_halfPending (P : Params) (d : Decoder) : (countPreamble P d).halfPending = d.halfPending := rfl
@[simp] theorem countPreamble_halfClass (P : Params) (d : Decoder) : (countPreamble P d).halfClass = d.halfClass := rfl
@[simp] theorem countPreamble_bitCnt (P : Params) (d : Decoder) : (countPreamble P d).bitCnt = d.bitCnt := rfl
@[simp] theorem countPreamble_curByte (P : Params) (d : Decoder) : (countPreamble P d).curByte = d.curByte := rfl
@[simp] theorem countPreamble_xorSum (P : Params) (d : Decoder) : (countPreamble P d).xorSum = d.xorSum := rfl
@[simp] theorem countPreamble_buf (P : Params) (d : Decoder) : (countPreamble P d).buf = d.buf := rfl
@[simp] theorem countPreamble_len (P : Params) (d : Decoder) : (countPreamble P d).len = d.len := rfl
@[simp] theorem countPreamble_ready (P : Params) (d : Decoder) : (countPreamble P d).ready = d.ready := rfl
@[simp] theorem countPreamble_pktTime (P : Params) (d : Decoder) : (countPreamble P d).pktTime = d.pktTime := rfl
@[simp] theorem countPreamble_pktPre (P : Params) (d : Decoder) : (countPreamble P d).pktPre = d.pktPre := rfl

@[simp] theorem startPacket_state (d : Decoder) : (startPacket d).state = .waitData := rfl
@[simp] theorem startPacket_preCnt (d : Decoder) : (startPacket d).preCnt = 0 := rfl
@[simp] theorem startPacket_curPre (d : Decoder) : (startPacket d).curPre = d.preCnt := rfl
@[simp] theorem startPacket_primed (d : Decoder) : (startPacket d).primed = d.primed := rfl
@[simp] theorem startPacket_lastT (d : Decoder) : (startPacket d).lastT = d.lastT := rfl
@[simp] theorem startPacket_level (d : Decoder) : (startPacket d).level = d.level := rfl
@[simp] theorem startPacket_halfPending (d : Decoder) : (startPacket d).halfPending = d.halfPending := rfl
@[simp] theorem startPacket_halfClass (d : Decoder) : (startPacket d).halfClass = d.halfClass := rfl
@[simp] theorem startPacket_bitCnt (d : Decoder) : (startPacket d).bitCnt = 0 := rfl
@[simp] theorem startPacket_curByte (d : Decoder) : (startPacket d).curByte = 0 := rfl
@[simp] theorem startPacket_xorSum (d : Decoder) : (startPacket d).xorSum = 0 := rfl
@[simp] theorem startPacket_buf (d : Decoder) : (startPacket d).buf = d.buf := rfl
@[simp] theorem startPacket_len (d : Decoder) : (startPacket d).len = 0 := rfl
@[simp] theorem startPacket_ready (d : Decoder) : (startPacket d).ready = d.ready := rfl
@[simp] theorem startPacket_pktTime (d : Decoder) : (startPacket d).pktTime = d.pktTime := rfl
@[simp] theorem startPacket_pktPre (d : Decoder) : (startPacket d).pktPre = d.pktPre := rfl

@[simp] theorem storeByte_state (v : Byte) (d : Decoder) : (storeByte v d).state = .waitEndBit := rfl
@[simp] theorem storeByte_preCnt (v : Byte) (d : Decoder) : (storeByte v d).preCnt = d.preCnt := rfl
@[simp] theorem storeByte_curPre (v : Byte) (d : Decoder) : (storeByte v d).curPre = d.curPre := rfl
@[simp] theorem storeByte_primed (v : Byte) (d : Decoder) : (storeByte v d).primed = d.primed := rfl
@[simp] theorem storeByte_lastT (v : Byte) (d : Decoder) : (storeByte v d).lastT = d.lastT := rfl
@[simp] theorem storeByte_level (v : Byte) (d : Decoder) : (storeByte v d).level = d.level := rfl
@[simp] theorem storeByte_halfPending (v : Byte) (d : Decoder) : (storeByte v d).halfPending = d.halfPending := rfl
@[simp] theorem storeByte_halfClass (v : Byte) (d : Decoder) : (storeByte v d).halfClass = d.halfClass := rfl
@[simp] theorem storeByte_bitCnt (v : Byte) (d : Decoder) : (storeByte v d).bitCnt = 0 := rfl
@[simp] theorem storeByte_curByte (v : Byte) (d : Decoder) : (storeByte v d).curByte = 0 := rfl
@[simp] theorem storeByte_xorSum (v : Byte) (d : Decoder) : (storeByte v d).xorSum = d.xorSum ^^^ v := rfl
@[simp] theorem storeByte_buf (v : Byte) (d : Decoder) : (storeByte v d).buf = Memory.write d.buf d.len.toNat v := rfl
@[simp] theorem storeByte_len (v : Byte) (d : Decoder) : (storeByte v d).len = d.len + 1 := rfl
@[simp] theorem storeByte_ready (v : Byte) (d : Decoder) : (storeByte v d).ready = d.ready := rfl
@[simp] theorem storeByte_pktTime (v : Byte) (d : Decoder) : (storeByte v d).pktTime = d.pktTime := rfl
@[simp] theorem storeByte_pktPre (v : Byte) (d : Decoder) : (storeByte v d).pktPre = d.pktPre := rfl

@[simp] theorem continuePacket_state (d : Decoder) : (continuePacket d).state = .waitData := rfl
@[simp] theorem continuePacket_preCnt (d : Decoder) : (continuePacket d).preCnt = d.preCnt := rfl
@[simp] theorem continuePacket_curPre (d : Decoder) : (continuePacket d).curPre = d.curPre := rfl
@[simp] theorem continuePacket_primed (d : Decoder) : (continuePacket d).primed = d.primed := rfl
@[simp] theorem continuePacket_lastT (d : Decoder) : (continuePacket d).lastT = d.lastT := rfl
@[simp] theorem continuePacket_level (d : Decoder) : (continuePacket d).level = d.level := rfl
@[simp] theorem continuePacket_halfPending (d : Decoder) : (continuePacket d).halfPending = d.halfPending := rfl
@[simp] theorem continuePacket_halfClass (d : Decoder) : (continuePacket d).halfClass = d.halfClass := rfl
@[simp] theorem continuePacket_bitCnt (d : Decoder) : (continuePacket d).bitCnt = 0 := rfl
@[simp] theorem continuePacket_curByte (d : Decoder) : (continuePacket d).curByte = 0 := rfl
@[simp] theorem continuePacket_xorSum (d : Decoder) : (continuePacket d).xorSum = d.xorSum := rfl
@[simp] theorem continuePacket_buf (d : Decoder) : (continuePacket d).buf = d.buf := rfl
@[simp] theorem continuePacket_len (d : Decoder) : (continuePacket d).len = d.len := rfl
@[simp] theorem continuePacket_ready (d : Decoder) : (continuePacket d).ready = d.ready := rfl
@[simp] theorem continuePacket_pktTime (d : Decoder) : (continuePacket d).pktTime = d.pktTime := rfl
@[simp] theorem continuePacket_pktPre (d : Decoder) : (continuePacket d).pktPre = d.pktPre := rfl

@[simp] theorem leavePacket_state (P : Params) (d : Decoder) : (leavePacket P d).state = .waitPreamble := rfl
@[simp] theorem leavePacket_preCnt (P : Params) (d : Decoder) : (leavePacket P d).preCnt = preCntAfterEndBit P := rfl
@[simp] theorem leavePacket_curPre (P : Params) (d : Decoder) : (leavePacket P d).curPre = d.curPre := rfl
@[simp] theorem leavePacket_primed (P : Params) (d : Decoder) : (leavePacket P d).primed = d.primed := rfl
@[simp] theorem leavePacket_lastT (P : Params) (d : Decoder) : (leavePacket P d).lastT = d.lastT := rfl
@[simp] theorem leavePacket_level (P : Params) (d : Decoder) : (leavePacket P d).level = d.level := rfl
@[simp] theorem leavePacket_halfPending (P : Params) (d : Decoder) : (leavePacket P d).halfPending = d.halfPending := rfl
@[simp] theorem leavePacket_halfClass (P : Params) (d : Decoder) : (leavePacket P d).halfClass = d.halfClass := rfl
@[simp] theorem leavePacket_bitCnt (P : Params) (d : Decoder) : (leavePacket P d).bitCnt = d.bitCnt := rfl
@[simp] theorem leavePacket_curByte (P : Params) (d : Decoder) : (leavePacket P d).curByte = d.curByte := rfl
@[simp] theorem leavePacket_xorSum (P : Params) (d : Decoder) : (leavePacket P d).xorSum = d.xorSum := rfl
@[simp] theorem leavePacket_buf (P : Params) (d : Decoder) : (leavePacket P d).buf = d.buf := rfl
@[simp] theorem leavePacket_len (P : Params) (d : Decoder) : (leavePacket P d).len = d.len := rfl
@[simp] theorem leavePacket_ready (P : Params) (d : Decoder) : (leavePacket P d).ready = d.ready := rfl
@[simp] theorem leavePacket_pktTime (P : Params) (d : Decoder) : (leavePacket P d).pktTime = d.pktTime := rfl
@[simp] theorem leavePacket_pktPre (P : Params) (d : Decoder) : (leavePacket P d).pktPre = d.pktPre := rfl

@[simp] theorem holdHalf_state (c : HalfClass) (d : Decoder) : (holdHalf c d).state = d.state := rfl
@[simp] theorem holdHalf_preCnt (c : HalfClass) (d : Decoder) : (holdHalf c d).preCnt = d.preCnt := rfl
@[simp] theorem holdHalf_curPre (c : HalfClass) (d : Decoder) : (holdHalf c d).curPre = d.curPre := rfl
@[simp] theorem holdHalf_primed (c : HalfClass) (d : Decoder) : (holdHalf c d).primed = d.primed := rfl
@[simp] theorem holdHalf_lastT (c : HalfClass) (d : Decoder) : (holdHalf c d).lastT = d.lastT := rfl
@[simp] theorem holdHalf_level (c : HalfClass) (d : Decoder) : (holdHalf c d).level = d.level := rfl
@[simp] theorem holdHalf_halfPending (c : HalfClass) (d : Decoder) : (holdHalf c d).halfPending = true := rfl
@[simp] theorem holdHalf_halfClass (c : HalfClass) (d : Decoder) : (holdHalf c d).halfClass = c := rfl
@[simp] theorem holdHalf_bitCnt (c : HalfClass) (d : Decoder) : (holdHalf c d).bitCnt = d.bitCnt := rfl
@[simp] theorem holdHalf_curByte (c : HalfClass) (d : Decoder) : (holdHalf c d).curByte = d.curByte := rfl
@[simp] theorem holdHalf_xorSum (c : HalfClass) (d : Decoder) : (holdHalf c d).xorSum = d.xorSum := rfl
@[simp] theorem holdHalf_buf (c : HalfClass) (d : Decoder) : (holdHalf c d).buf = d.buf := rfl
@[simp] theorem holdHalf_len (c : HalfClass) (d : Decoder) : (holdHalf c d).len = d.len := rfl
@[simp] theorem holdHalf_ready (c : HalfClass) (d : Decoder) : (holdHalf c d).ready = d.ready := rfl
@[simp] theorem holdHalf_pktTime (c : HalfClass) (d : Decoder) : (holdHalf c d).pktTime = d.pktTime := rfl
@[simp] theorem holdHalf_pktPre (c : HalfClass) (d : Decoder) : (holdHalf c d).pktPre = d.pktPre := rfl

@[simp] theorem recordEdge_state (now : Word) (lvl : Bool) (d : Decoder) : (recordEdge now lvl d).state = d.state := rfl
@[simp] theorem recordEdge_preCnt (now : Word) (lvl : Bool) (d : Decoder) : (recordEdge now lvl d).preCnt = d.preCnt := rfl
@[simp] theorem recordEdge_curPre (now : Word) (lvl : Bool) (d : Decoder) : (recordEdge now lvl d).curPre = d.curPre := rfl
@[simp] theorem recordEdge_primed (now : Word) (lvl : Bool) (d : Decoder) : (recordEdge now lvl d).primed = d.primed := rfl
@[simp] theorem recordEdge_lastT (now : Word) (lvl : Bool) (d : Decoder) : (recordEdge now lvl d).lastT = now := rfl
@[simp] theorem recordEdge_level (now : Word) (lvl : Bool) (d : Decoder) : (recordEdge now lvl d).level = lvl := rfl
@[simp] theorem recordEdge_halfPending (now : Word) (lvl : Bool) (d : Decoder) : (recordEdge now lvl d).halfPending = d.halfPending := rfl
@[simp] theorem recordEdge_halfClass (now : Word) (lvl : Bool) (d : Decoder) : (recordEdge now lvl d).halfClass = d.halfClass := rfl
@[simp] theorem recordEdge_bitCnt (now : Word) (lvl : Bool) (d : Decoder) : (recordEdge now lvl d).bitCnt = d.bitCnt := rfl
@[simp] theorem recordEdge_curByte (now : Word) (lvl : Bool) (d : Decoder) : (recordEdge now lvl d).curByte = d.curByte := rfl
@[simp] theorem recordEdge_xorSum (now : Word) (lvl : Bool) (d : Decoder) : (recordEdge now lvl d).xorSum = d.xorSum := rfl
@[simp] theorem recordEdge_buf (now : Word) (lvl : Bool) (d : Decoder) : (recordEdge now lvl d).buf = d.buf := rfl
@[simp] theorem recordEdge_len (now : Word) (lvl : Bool) (d : Decoder) : (recordEdge now lvl d).len = d.len := rfl
@[simp] theorem recordEdge_ready (now : Word) (lvl : Bool) (d : Decoder) : (recordEdge now lvl d).ready = d.ready := rfl
@[simp] theorem recordEdge_pktTime (now : Word) (lvl : Bool) (d : Decoder) : (recordEdge now lvl d).pktTime = d.pktTime := rfl
@[simp] theorem recordEdge_pktPre (now : Word) (lvl : Bool) (d : Decoder) : (recordEdge now lvl d).pktPre = d.pktPre := rfl

/-! ## The state -/

@[simp] theorem State.withDec_dec (s : State) (d : Decoder) : (s.withDec d).dec = d := rfl
@[simp] theorem State.withDec_params (s : State) (d : Decoder) : (s.withDec d).params = s.params := rfl
@[simp] theorem State.withDec_rst (s : State) (d : Decoder) : (s.withDec d).rst = s.rst := rfl
@[simp] theorem State.withDec_edgeStream (s : State) (d : Decoder) : (s.withDec d).edgeStream = s.edgeStream := rfl
@[simp] theorem State.withDec_consumerStream (s : State) (d : Decoder) : (s.withDec d).consumerStream = s.consumerStream := rfl
@[simp] theorem State.withDec_clientStream (s : State) (d : Decoder) : (s.withDec d).clientStream = s.clientStream := rfl
@[simp] theorem State.withDec_schedule (s : State) (d : Decoder) : (s.withDec d).schedule = s.schedule := rfl
@[simp] theorem State.withDec_response (s : State) (d : Decoder) : (s.withDec d).response = s.response := rfl
@[simp] theorem State.withDec_draws (s : State) (d : Decoder) : (s.withDec d).draws = s.draws := rfl

@[simp] theorem respond_dec (st : Status) (r0 r1 r2 r3 : Word) (s : State) : (respond st r0 r1 r2 r3 s).dec = s.dec := rfl
@[simp] theorem respond_params (st : Status) (r0 r1 r2 r3 : Word) (s : State) : (respond st r0 r1 r2 r3 s).params = s.params := rfl
@[simp] theorem respond_rst (st : Status) (r0 r1 r2 r3 : Word) (s : State) : (respond st r0 r1 r2 r3 s).rst = s.rst := rfl
@[simp] theorem respond_edgeStream (st : Status) (r0 r1 r2 r3 : Word) (s : State) : (respond st r0 r1 r2 r3 s).edgeStream = s.edgeStream := rfl
@[simp] theorem respond_consumerStream (st : Status) (r0 r1 r2 r3 : Word) (s : State) : (respond st r0 r1 r2 r3 s).consumerStream = s.consumerStream := rfl
@[simp] theorem respond_clientStream (st : Status) (r0 r1 r2 r3 : Word) (s : State) : (respond st r0 r1 r2 r3 s).clientStream = s.clientStream := rfl
@[simp] theorem respond_schedule (st : Status) (r0 r1 r2 r3 : Word) (s : State) : (respond st r0 r1 r2 r3 s).schedule = s.schedule := rfl
@[simp] theorem respond_response (st : Status) (r0 r1 r2 r3 : Word) (s : State) : (respond st r0 r1 r2 r3 s).response = some ⟨st, r0, r1, r2, r3⟩ := rfl
@[simp] theorem respond_draws (st : Status) (r0 r1 r2 r3 : Word) (s : State) : (respond st r0 r1 r2 r3 s).draws = s.draws := rfl

@[simp] theorem respondOk_dec (r0 : Word) (s : State) : (respondOk r0 s).dec = s.dec := rfl
@[simp] theorem respondOk_params (r0 : Word) (s : State) : (respondOk r0 s).params = s.params := rfl
@[simp] theorem respondOk_rst (r0 : Word) (s : State) : (respondOk r0 s).rst = s.rst := rfl
@[simp] theorem respondOk_edgeStream (r0 : Word) (s : State) : (respondOk r0 s).edgeStream = s.edgeStream := rfl
@[simp] theorem respondOk_consumerStream (r0 : Word) (s : State) : (respondOk r0 s).consumerStream = s.consumerStream := rfl
@[simp] theorem respondOk_clientStream (r0 : Word) (s : State) : (respondOk r0 s).clientStream = s.clientStream := rfl
@[simp] theorem respondOk_schedule (r0 : Word) (s : State) : (respondOk r0 s).schedule = s.schedule := rfl
@[simp] theorem respondOk_response (r0 : Word) (s : State) : (respondOk r0 s).response = some ⟨.ok, r0, 0, 0, 0⟩ := rfl
@[simp] theorem respondOk_draws (r0 : Word) (s : State) : (respondOk r0 s).draws = s.draws := rfl

@[simp] theorem respondNoCode_dec (s : State) : (respondNoCode s).dec = s.dec := rfl
@[simp] theorem respondNoCode_params (s : State) : (respondNoCode s).params = s.params := rfl
@[simp] theorem respondNoCode_rst (s : State) : (respondNoCode s).rst = s.rst := rfl
@[simp] theorem respondNoCode_edgeStream (s : State) : (respondNoCode s).edgeStream = s.edgeStream := rfl
@[simp] theorem respondNoCode_consumerStream (s : State) : (respondNoCode s).consumerStream = s.consumerStream := rfl
@[simp] theorem respondNoCode_clientStream (s : State) : (respondNoCode s).clientStream = s.clientStream := rfl
@[simp] theorem respondNoCode_schedule (s : State) : (respondNoCode s).schedule = s.schedule := rfl
@[simp] theorem respondNoCode_response (s : State) : (respondNoCode s).response = some ⟨.nocode, Config.anyWord s.draws, 0, 0, 0⟩ := rfl
@[simp] theorem respondNoCode_draws (s : State) : (respondNoCode s).draws = s.draws + 1 := rfl

@[simp] theorem respondIllegal_dec (s : State) : (respondIllegal s).dec = s.dec := rfl
@[simp] theorem respondIllegal_params (s : State) : (respondIllegal s).params = s.params := rfl
@[simp] theorem respondIllegal_rst (s : State) : (respondIllegal s).rst = s.rst := rfl
@[simp] theorem respondIllegal_edgeStream (s : State) : (respondIllegal s).edgeStream = s.edgeStream := rfl
@[simp] theorem respondIllegal_consumerStream (s : State) : (respondIllegal s).consumerStream = s.consumerStream := rfl
@[simp] theorem respondIllegal_clientStream (s : State) : (respondIllegal s).clientStream = s.clientStream := rfl
@[simp] theorem respondIllegal_schedule (s : State) : (respondIllegal s).schedule = s.schedule := rfl
@[simp] theorem respondIllegal_response (s : State) : (respondIllegal s).response = some ⟨.illegal, 0, 0, 0, 0⟩ := rfl
@[simp] theorem respondIllegal_draws (s : State) : (respondIllegal s).draws = s.draws := rfl

@[simp] theorem State.beginEvent_dec (s : State) (rest : List PortEvent) : (s.beginEvent rest).dec = s.dec := rfl
@[simp] theorem State.beginEvent_params (s : State) (rest : List PortEvent) : (s.beginEvent rest).params = s.params := rfl
@[simp] theorem State.beginEvent_rst (s : State) (rest : List PortEvent) : (s.beginEvent rest).rst = s.rst := rfl
@[simp] theorem State.beginEvent_edgeStream (s : State) (rest : List PortEvent) : (s.beginEvent rest).edgeStream = s.edgeStream := rfl
@[simp] theorem State.beginEvent_consumerStream (s : State) (rest : List PortEvent) : (s.beginEvent rest).consumerStream = s.consumerStream := rfl
@[simp] theorem State.beginEvent_clientStream (s : State) (rest : List PortEvent) : (s.beginEvent rest).clientStream = s.clientStream := rfl
@[simp] theorem State.beginEvent_schedule (s : State) (rest : List PortEvent) : (s.beginEvent rest).schedule = rest := rfl
@[simp] theorem State.beginEvent_response (s : State) (rest : List PortEvent) : (s.beginEvent rest).response = none := rfl
@[simp] theorem State.beginEvent_draws (s : State) (rest : List PortEvent) : (s.beginEvent rest).draws = s.draws := rfl

@[simp] theorem presentNext_dec (cw : CmdWord) (s : State) : (presentNext cw s).dec = s.dec := rfl
@[simp] theorem presentNext_params (cw : CmdWord) (s : State) : (presentNext cw s).params = s.params := rfl
@[simp] theorem presentNext_rst (cw : CmdWord) (s : State) : (presentNext cw s).rst = false := rfl
@[simp] theorem presentNext_edgeStream (cw : CmdWord) (s : State) : (presentNext cw s).edgeStream = cw :: s.edgeStream := rfl
@[simp] theorem presentNext_consumerStream (cw : CmdWord) (s : State) : (presentNext cw s).consumerStream = s.consumerStream := rfl
@[simp] theorem presentNext_clientStream (cw : CmdWord) (s : State) : (presentNext cw s).clientStream = s.clientStream := rfl
@[simp] theorem presentNext_schedule (cw : CmdWord) (s : State) : (presentNext cw s).schedule = .present .edgeSource :: s.schedule := rfl
@[simp] theorem presentNext_response (cw : CmdWord) (s : State) : (presentNext cw s).response = s.response := rfl
@[simp] theorem presentNext_draws (cw : CmdWord) (s : State) : (presentNext cw s).draws = s.draws := rfl

@[simp] theorem State.withStream_dec (s : State) (a : Agent) (cws : List CmdWord) : (s.withStream a cws).dec = s.dec := by cases a <;> rfl
@[simp] theorem State.withStream_params (s : State) (a : Agent) (cws : List CmdWord) : (s.withStream a cws).params = s.params := by cases a <;> rfl
@[simp] theorem State.withStream_rst (s : State) (a : Agent) (cws : List CmdWord) : (s.withStream a cws).rst = s.rst := by cases a <;> rfl
@[simp] theorem State.withStream_schedule (s : State) (a : Agent) (cws : List CmdWord) : (s.withStream a cws).schedule = s.schedule := by cases a <;> rfl
@[simp] theorem State.withStream_response (s : State) (a : Agent) (cws : List CmdWord) : (s.withStream a cws).response = s.response := by cases a <;> rfl
@[simp] theorem State.withStream_draws (s : State) (a : Agent) (cws : List CmdWord) : (s.withStream a cws).draws = s.draws := by cases a <;> rfl

theorem State.withStream_same (s : State) (a : Agent) (cws : List CmdWord) : (s.withStream a cws).stream a = cws := by
  cases a <;> rfl

theorem State.withStream_other (s : State) (a b : Agent) (cws : List CmdWord) (h : b ≠ a) :
    (s.withStream a cws).stream b = s.stream b := by
  cases a <;> cases b <;> first | rfl | exact absurd rfl h

end Sys2Proof.Machine
end

