-- ==== Sys2Proof/Laws/Transitions.lean ====
section
/-! SUPPORT. What each shared operation can do, said once: a completed bit, an EDGE, the next event, a command and a
step. -/

namespace Sys2Proof.Machine

/-- What a completed bit `b` does to a decoder, with the condition of each case (44_bitstream_decoder.md R134 to R141). -/
inductive BitEffect (P : Params) (b : Bool) (now : Word) (d : Decoder) : Transition → Prop where
  | counted (hs : d.state = .waitPreamble ∨ d.state = .waitStartBit) (hb : b = true) :
      BitEffect P b now d (quiet (countPreamble P d))
  | started (hs : d.state = .waitPreamble ∨ d.state = .waitStartBit) (hb : b = false)
      (hp : P.preambleMin ≤ d.preCnt.toNat) : BitEffect P b now d (quiet (startPacket d))
  | restarted (hs : d.state = .waitPreamble ∨ d.state = .waitStartBit) (hb : b = false)
      (hp : d.preCnt.toNat < P.preambleMin) : BitEffect P b now d (quiet { d with preCnt := 0 })
  | shifted (hs : d.state = .waitData) (hc : d.bitCnt.toNat < 7) :
      BitEffect P b now d (quiet { d with curByte := shiftIn b d, bitCnt := d.bitCnt + 1 })
  | overflowed (hs : d.state = .waitData) (hc : d.bitCnt.toNat = 7) (hl : P.maxLen ≤ d.len.toNat) :
      BitEffect P b now d (discardPacket .e3 d)
  | stored (hs : d.state = .waitData) (hc : d.bitCnt.toNat = 7) (hl : d.len.toNat < P.maxLen) :
      BitEffect P b now d (quiet (storeByte (shiftIn b d) d))
  | continued (hs : d.state = .waitEndBit) (hb : b = false) : BitEffect P b now d (quiet (continuePacket d))
  | published (hs : d.state = .waitEndBit) (hb : b = true) (hx : d.xorSum = 0) :
      BitEffect P b now d (leavePacket P (publishPacket now d), none)
  | dropped (hs : d.state = .waitEndBit) (hb : b = true) (hx : d.xorSum ≠ 0) :
      BitEffect P b now d (leavePacket P d, some .e4)

theorem onBit_effect (P : Params) (b : Bool) (now : Word) (d : Decoder) : BitEffect P b now d (onBit P b now d) := by
  have preamble (hs : d.state = .waitPreamble ∨ d.state = .waitStartBit) :
      BitEffect P b now d (preambleBit P b d) := by
    cases b with
    | true => exact .counted hs rfl
    | false =>
      by_cases hp : P.preambleMin ≤ d.preCnt.toNat
      · simpa [preambleBit, endPreamble, hp] using BitEffect.started (now := now) hs rfl hp
      · simpa [preambleBit, endPreamble, hp] using BitEffect.restarted (now := now) hs rfl (by omega)
  unfold onBit
  split
  next hs => exact preamble (.inl hs)
  next hs => exact preamble (.inr hs)
  next hs =>
    have := d.bitCnt.isLt
    unfold dataBit
    split
    · exact .shifted hs ‹_›
    · split
      · exact .overflowed hs (by omega) ‹_›
      · exact .stored hs (by omega) (by omega)
  next hs =>
    cases b with
    | false => exact .continued hs rfl
    | true =>
      by_cases hx : d.xorSum = 0
      · simpa [endBit, endPacket, checksumValid, hx] using BitEffect.published hs rfl hx
      · have hv : checksumValid d = false := by simpa [checksumValid] using hx
        simpa [endBit, endPacket, hv] using BitEffect.dropped hs rfl hx

/-- What an EDGE does to a decoder, with the condition of each case (44_bitstream_decoder.md R128 to R133). -/
inductive EdgeEffect (P : Params) (now : Word) (lvl : Bool) (d : Decoder) : Transition → Prop where
  | primes (hp : d.primed = false) : EdgeEffect P now lvl d (quiet { recordEdge now lvl d with primed := true })
  | invalid (hp : d.primed = true) (hc : classify P (sub32 now d.lastT) = .invalid) :
      EdgeEffect P now lvl d (discardPacket .e1 (recordEdge now lvl d))
  | firstHalf (c : HalfClass) (hp : d.primed = true) (hc : classify P (sub32 now d.lastT) = .valid c)
      (hh : d.halfPending = false) : EdgeEffect P now lvl d (quiet (holdHalf c (recordEdge now lvl d)))
  | bit (c : HalfClass) (hp : d.primed = true) (hc : classify P (sub32 now d.lastT) = .valid c)
      (hh : d.halfPending = true) (he : d.halfClass = c) {t : Transition}
      (ht : BitEffect P (c == .one) now { recordEdge now lvl d with halfPending := false } t) :
      EdgeEffect P now lvl d t
  | keptSecond (c : HalfClass) (hp : d.primed = true) (hc : classify P (sub32 now d.lastT) = .valid c)
      (hh : d.halfPending = true) (he : d.halfClass ≠ c) (hm : P.mismatchPolicy = .keepSecond) :
      EdgeEffect P now lvl d (holdHalf c (discardPacket .e2 (recordEdge now lvl d)).1, some .e2)
  | droppedBoth (c : HalfClass) (hp : d.primed = true) (hc : classify P (sub32 now d.lastT) = .valid c)
      (hh : d.halfPending = true) (he : d.halfClass ≠ c) (hm : P.mismatchPolicy = .dropBoth) :
      EdgeEffect P now lvl d (discardPacket .e2 (recordEdge now lvl d))

theorem edgeTransition_effect (P : Params) (now : Word) (lvl : Bool) (d : Decoder) :
    EdgeEffect P now lvl d (edgeTransition P now lvl d) := by
  unfold edgeTransition
  split
  next hp =>
    rcases hc : classify P (sub32 now d.lastT) with c | _
    · simp only [takeInterval]
      by_cases hh : d.halfPending = true
      · by_cases he : d.halfClass = c
        · have ht : takeHalf P c now (recordEdge now lvl d) = completeBit P c now (recordEdge now lvl d) := by
            simp [takeHalf, hh, he]
          rw [ht]
          exact .bit c hp hc hh he (onBit_effect _ _ _ _)
        · rcases hm : P.mismatchPolicy
          · simpa [takeHalf, hh, he, mismatch, hm] using EdgeEffect.keptSecond c hp hc hh he hm
          · simpa [takeHalf, hh, he, mismatch, hm] using EdgeEffect.droppedBoth c hp hc hh he hm
      · simpa [takeHalf, hh] using EdgeEffect.firstHalf (lvl := lvl) c hp hc (by simpa using hh)
    · exact .invalid hp hc
  next hp => exact .primes (by simpa using hp)

/-- What the next event brings, with the condition of each case. -/
inductive FetchEffect (s : State) : Fetched → Prop where
  | nothing (h : s.schedule = []) : FetchEffect s (.idle (s.beginEvent []))
  | driven (asserted : Bool) (rest : List PortEvent) (h : s.schedule = .setRst asserted :: rest) :
      FetchEffect s (.idle (driveRst asserted (s.beginEvent rest)))
  | held (a : Agent) (rest : List PortEvent) (h : s.schedule = .present a :: rest) (hr : s.rst = true) :
      FetchEffect s (.idle (s.beginEvent rest))
  | absent (a : Agent) (rest : List PortEvent) (h : s.schedule = .present a :: rest) (hr : s.rst = false)
      (hs : s.stream a = []) : FetchEffect s (.idle (s.beginEvent rest))
  | accepted (a : Agent) (rest : List PortEvent) (cw : CmdWord) (cws : List CmdWord)
      (h : s.schedule = .present a :: rest) (hr : s.rst = false) (hs : s.stream a = cw :: cws) :
      FetchEffect s (.command cw (acceptCommand a cws rest s))

theorem fetch_effect (s : State) : FetchEffect s (fetch s) := by
  unfold fetch
  split
  next h => exact .nothing h
  next asserted rest h => exact .driven asserted rest h
  next a rest h =>
    by_cases hr : s.rst = true
    · simpa [hr] using FetchEffect.held a rest h hr
    · have hr : s.rst = false := by simpa using hr
      cases hs : s.stream a with
      | nil => simpa [hr, hs] using FetchEffect.absent a rest h hr hs
      | cons cw cws => simpa [hr, hs] using FetchEffect.accepted a rest cw cws h hr hs

/-- A lookup answers in one step, whether or not it finds a code. -/
theorem respondLookup_fields (r : Option Word) (s : State) :
    (respondLookup r s).dec = s.dec ∧ (respondLookup r s).params = s.params ∧ (respondLookup r s).rst = s.rst
      ∧ (respondLookup r s).edgeStream = s.edgeStream ∧ (respondLookup r s).consumerStream = s.consumerStream
      ∧ (respondLookup r s).clientStream = s.clientStream ∧ (respondLookup r s).schedule = s.schedule := by
  cases r <;> exact ⟨rfl, rfl, rfl, rfl, rfl, rfl, rfl⟩

/-- An EDGE answers `OK` and leaves the decoder of its transition. -/
theorem exec_edge (now : Word) (lvl : BitVec 1) (s : State) :
    exec (.edge now lvl) s = .next { s with
      dec := (edgeTransition s.params now (bit lvl) s.dec).1, response := some ⟨.ok, 0, 0, 0, 0⟩ } := rfl

/-- A step with admitted parameters is the event that is next, and the command it brings. -/
theorem step_of_wf (s : State) (h : s.params.wf = true) :
    step s = match fetch s with
      | .idle t => .next t
      | .command cw t => runCommand cw t := if_pos h

end Sys2Proof.Machine
end

