-- ==== Sys2Proof/Laws/Runs.lean ====
section
/-! SUPPORT. Runs of commands one command at a time, and the EDGEs in them. -/

namespace Sys2Proof.Machine

@[simp] theorem afterAll_nil (s : State) : afterAll s [] = s := rfl

@[simp] theorem afterAll_append (s : State) (xs ys : List Instr) :
    afterAll s (xs ++ ys) = afterAll (afterAll s xs) ys := List.foldl_append ..

@[simp] theorem afterAll_cons (s : State) (i : Instr) (is : List Instr) :
    afterAll s (i :: is) = afterAll (after i s) is := rfl

@[simp] theorem afterEdges_nil (s : State) : afterEdges s [] = s := rfl

@[simp] theorem afterEdges_append (s : State) (xs ys : List (Word × BitVec 1)) :
    afterEdges s (xs ++ ys) = afterEdges (afterEdges s xs) ys := List.foldl_append ..

@[simp] theorem afterEdges_cons (s : State) (e : Word × BitVec 1) (es : List (Word × BitVec 1)) :
    afterEdges s (e :: es) = afterEdges (after (.edge e.1 e.2) s) es := rfl

@[simp] theorem edgesIn_append (xs ys : List Instr) : edgesIn (xs ++ ys) = edgesIn xs ++ edgesIn ys :=
  List.filterMap_append ..

@[simp] theorem edgesIn_edge (now : Word) (lvl : BitVec 1) : edgesIn [.edge now lvl] = [(now, lvl)] := rfl

/-- An EDGE takes its transition's decoder, and nothing else but the response changes. -/
theorem after_edge (now : Word) (lvl : BitVec 1) (s : State) :
    after (.edge now lvl) s = { s with
      dec := (edgeTransition s.params now (bit lvl) s.dec).1, response := some ⟨.ok, 0, 0, 0, 0⟩ } := rfl

end Sys2Proof.Machine
end

