-- ==== Sys2Proof/Tests/Slice0.lean ====
section
/-! SUPPORT. Tests. Expected values come from 95_test_vectors.md (their ids are cited) or from the rule cited; part 4 shows
for every statement with hypotheses a state and operands that meet all of them together. -/

open Sys2Proof Sys2Proof.Machine

namespace Sys2Proof.Tests

/-- The state after a command word, if the machine goes on. -/
def ran (cw : CmdWord) (s : State) : Option State :=
  match runCommand cw s with
  | .next t => some t
  | .fault _ => none
  | .refused _ => none

/-- The response to a command word. -/
def reply (cw : CmdWord) (s : State) : Option Response := (ran cw s).bind fun t => t.response

/-- The response to an encoder command word after reset, and its status alone. -/
def answers (cw : CmdWord) : Option Response := reply cw State.reset
def status (cw : CmdWord) : Option Status := (answers cw).map fun r => r.st

/-- The response `OK` with result `v`. -/
def ok (v : Word) : Option Response := some ⟨.ok, v, 0, 0, 0⟩

/-- The state after one step, if the machine goes on. -/
def stepped (s : State) : Option State :=
  match step s with
  | .next t => some t
  | .fault _ => none
  | .refused _ => none

/-- The reset state with another decoder. -/
def withDecoder (d : Decoder) : State := { State.reset with dec := d }

/-- Between bits, hunting for a preamble, an edge at time 1000 seen. -/
def hunting : Decoder := { Decoder.reset with primed := true, lastT := 1000 }

/-! ## 1. Well-formedness: one refused parameter set for each check of 00_scope.md R8 -/

theorem test_wf_default : Params.default.wf = true := by decide

theorem test_wf_refuses_oneMin_not_below_split : ({ Params.default with oneMin := 80 } : Params).wf = false := by decide

theorem test_wf_refuses_split_above_zeroMax : ({ Params.default with zeroMax := 79 } : Params).wf = false := by decide

theorem test_wf_refuses_zeroMax_of_33_bits : ({ Params.default with zeroMax := 2 ^ 32 } : Params).wf = false := by decide

theorem test_wf_refuses_preambleMin_zero : ({ Params.default with preambleMin := 0 } : Params).wf = false := by decide

theorem test_wf_refuses_cap_below_min : ({ Params.default with preambleCap := 16 } : Params).wf = false := by decide

theorem test_wf_refuses_cap_above_255 : ({ Params.default with preambleCap := 256 } : Params).wf = false := by decide

theorem test_wf_refuses_maxLen_zero : ({ Params.default with maxLen := 0 } : Params).wf = false := by decide

theorem test_wf_refuses_maxLen_nine : ({ Params.default with maxLen := 9 } : Params).wf = false := by decide

theorem test_wf_refuses_ch1_not_below_ch2 : ({ Params.default with ch1Offset := 193 } : Params).wf = false := by decide

theorem test_wf_refuses_ch2_of_33_bits : ({ Params.default with ch2Offset := 2 ^ 32 } : Params).wf = false := by decide

theorem test_step_refuses_bad_parameters :
    stepped (State.resetWith { Params.default with maxLen := 9 }) = none := by decide

/-! ## 2. Decoding: a word of 95_test_vectors.md for every command -/

/-- The command a word decodes to. -/
def read (cw : CmdWord) : Option Instr :=
  match decode cw with
  | .ok i => some i
  | .error _ => none

/-- P1 command 2. -/
theorem test_decode_edge : read 0x01000004220000000100000000 = some (.edge 1058 1) := by decide

/-- The last command of P5. -/
theorem test_decode_readPacket : read 0x02000000000000000000000000 = some .readPacket := by decide

/-- P4 command 255. -/
theorem test_decode_readClear : read 0x03000000000000000000000000 = some .readClear := by decide

/-- 30_encoding.md R71, R77. -/
theorem test_decode_clearReady : read 0x04000000000000000000000000 = some .clearReady := by decide

/-- V-B10. -/
theorem test_decode_enc6 : read 0x10FFFFFF0F0000000000000000 = some (.enc6 0x0F) := by decide

/-- V-B23. -/
theorem test_decode_dec8 : read 0x11FFFFFFAC0000000000000000 = some (.dec8 0xAC) := by decide

/-- V-G13. -/
theorem test_decode_enc12 : read 0x1200000010000001FF00000000 = some (.enc12 0 0xFF) := by decide

/-- V-G5. -/
theorem test_decode_enc18 : read 0x130000000700003FFE00000000 = some (.enc18 7 0x3FFE) := by decide

/-- V-G17. -/
theorem test_decode_enc24 : read 0x14000000050001234500000000 = some (.enc24 5 0x12345) := by decide

/-- V-G23. -/
theorem test_decode_dec16 : read 0x15FFFF53390000000000000000 = some (.dec16 0x5339) := by decide

/-- V-G2. -/
theorem test_decode_dec24 : read 0x16005AAC8E0000000000000000 = some (.dec24 0x5AAC8E) := by decide

/-- V-G29. -/
theorem test_decode_dec32 : read 0x1772B88DA60000000000000000 = some (.dec32 0x72B88DA6) := by decide

/-- V-S8. -/
theorem test_decode_shortAddr : read 0x1800000003000000FF00000000 = some (.shortAddr 3 255) := by decide

/-- V-L2. -/
theorem test_decode_longAddr : read 0x19000000C3000000EC00000001 = some (.longAddr 0xC3 0xEC 1) := by decide

/-- V-N5. -/
theorem test_decode_sentinel : read 0x1AFFFFFFFE0000000000000000 = some (.sentinel 2) := by decide

/-- V-C7. -/
theorem test_decode_cutout : read 0x1BFFFFFFF00000005000000010 = some (.cutout 0xFFFFFFF0 80 0x10) := by decide

/-- V-C13. -/
theorem test_decode_cutoutStd : read 0x1C00001CD00000000300001CE8 = some (.cutoutStd 7376 1 7400) := by decide

/-- V-U1 to V-U5: "`ILLEGAL`, R0 to R3 = 0". -/
theorem test_unassigned_opcodes_answer_illegal :
    answers 0 = some ⟨.illegal, 0, 0, 0, 0⟩
      ∧ status 0x05000000000000000000000000 = some .illegal
      ∧ status 0x0F000000000000000000000000 = some .illegal
      ∧ status 0x1D000000000000000000000000 = some .illegal
      ∧ status 0xFFFFFFFFFFFFFFFFFFFFFFFFFF = some .illegal := by decide

/-- The assembler encodes the operands it is given: V-B10 and V-C13 by their words. -/
theorem test_assembler_words :
    asmCommand ⟨"ENC6", 0x10, .a⟩ [0xFFFFFF0F] = some 0x10FFFFFF0F0000000000000000
      ∧ asmCommand ⟨"CUTOUT_STD", 0x1C, .abc⟩ [7376, 3, 7400] = some 0x1C00001CD00000000300001CE8
      ∧ asmCommand ⟨"ENC6", 0x10, .a⟩ [] = none := by decide

/-- P5 commands 1 and 2: `.level 0`, `.time 1000`, `H 58`. -/
theorem test_assembler_edges :
    assemble ⟨0, true⟩ [.level false, .time 1000, .half 58]
      = some [0x01000003E80000000000000000, 0x01000004220000000100000000] := by decide

/-- The table's numbering (log entry 8): EDGE 1058, 1, and a row given by its opcode byte alone. -/
theorem test_table_numbering :
    decodeTableWord 104 (0x01 + 1058 * 2 ^ 8 + 2 ^ 40) = some (.edge 1058 1)
      ∧ decodeTableWord 8 0x1B = some (.cutout 0 0 0) ∧ decodeTableWord 8 0x1D = none := by decide

/-! ## 3. The commands -/

/-- V-B2, V-B5, V-B12. -/
theorem test_enc6 :
    answers 0x10000000C00000000000000000 = ok 0xAC ∧ answers 0x100000000F0000000000000000 = ok 0xB1
      ∧ answers 0x10000000250000000000000000 = ok 0x71 := by decide

/-- V-B15. -/
theorem test_dec8 : answers 0x11000000170000000000000000 = ok 0x33 := by decide

/-- V-B19, V-B8. -/
theorem test_dec8_no_code :
    status 0x11000000870000000000000000 = some .nocode ∧ status 0x110000000F0000000000000000 = some .nocode := by decide

/-- V-G12. -/
theorem test_enc12 : answers 0x120000000A0000005A00000000 = ok 0xD166 := by decide

/-- V-G5. -/
theorem test_enc18 : answers 0x130000000700003FFE00000000 = ok 0x533339 := by decide

/-- V-G17. -/
theorem test_enc24 : answers 0x14000000050001234500000000 = ok 0x72B88DA6 := by decide

/-- V-G1. -/
theorem test_dec16 : answers 0x15000053390000000000000000 = ok 0x7FE := by decide

/-- V-G21, V-G22. -/
theorem test_dec16_no_code :
    status 0x1500000FAC0000000000000000 = some .nocode ∧ status 0x150000AC0F0000000000000000 = some .nocode := by decide

/-- V-G2. -/
theorem test_dec24 : answers 0x16005AAC8E0000000000000000 = ok 0x1C00C := by decide

/-- V-G25. -/
theorem test_dec24_no_code : status 0x16005A0F8E0000000000000000 = some .nocode := by decide

/-- V-G29. -/
theorem test_dec32 : answers 0x1772B88DA60000000000000000 = ok 0x512345 := by decide

/-- V-G28. -/
theorem test_dec32_no_code : status 0x173333330F0000000000000000 = some .nocode := by decide

/-- V-S2, V-S7, V-S8. -/
theorem test_shortAddr :
    answers 0x18000000420000000100000000 = ok 0x95A9 ∧ answers 0x18000000FF0000000000000000 = ok 0xA3AC
      ∧ answers 0x1800000003000000FF00000000 = ok 0x99A5 := by decide

/-- V-L2, V-L6, V-L7. -/
theorem test_longAddr :
    answers 0x19000000C3000000EC00000001 = ok 0x96D8 ∧ answers 0x19000000000000000000000000 = ok 0x9CAC
      ∧ answers 0x19000000FF000000FF00000000 = ok 0x9C33 := by decide

/-- V-N1 to V-N4. -/
theorem test_sentinel :
    answers 0x1A000000000000000000000000 = ok 0x0F ∧ answers 0x1A000000010000000000000000 = ok 0xF0
      ∧ answers 0x1A000000020000000000000000 = ok 0x3C ∧ answers 0x1A000000030000000000000000 = ok 0xE1 := by decide

/-- V-C2, V-C4. -/
theorem test_cutout :
    answers 0x1B00001CD00000005000001CE8 = ok 56 ∧ answers 0x1B00001CD00000005000001D20 = ok 0 := by decide

/-- V-C7, V-C8, V-C9. -/
theorem test_cutout_wrap :
    answers 0x1BFFFFFFF00000005000000010 = ok 48 ∧ answers 0x1B000000640000005000000032 = ok 0
      ∧ answers 0x1B00000000FFFFFFFF00000000 = ok 0xFFFFFFFF := by decide

/-- V-C10, V-C11, V-C12. -/
theorem test_cutoutStd :
    answers 0x1C00001CD00000000000001CE8 = ok 56 ∧ answers 0x1C00001CD00000000100001CE8 = ok 169
      ∧ answers 0x1C00001CD00000000100001D91 = ok 0 := by decide

/-- Waiting half, waiting class, state and preamble count after an EDGE at `d` in the primed decoder. -/
def afterInterval (d : Word) : Bool × HalfClass × DecState × BitVec 8 :=
  let t := (after (.edge d 1) (withDecoder { Decoder.reset with primed := true, preCnt := 3 })).dec
  (t.halfPending, t.halfClass, t.state, t.preCnt)

/-- V-D11, V-D12, V-D14, V-D15, V-D17, V-D18 (from a count of 3, which only an invalid interval resets). -/
theorem test_edge_bands :
    afterInterval 51 = (false, .zero, .waitPreamble, 0) ∧ afterInterval 52 = (true, .one, .waitPreamble, 3)
      ∧ afterInterval 79 = (true, .one, .waitPreamble, 3) ∧ afterInterval 80 = (true, .zero, .waitPreamble, 3)
      ∧ afterInterval 10000 = (true, .zero, .waitPreamble, 3)
      ∧ afterInterval 10001 = (false, .zero, .waitPreamble, 0) := by decide

/-- P1 before its last EDGE: three bytes stored, the first half of the end bit waiting. -/
def beforeEnd : Decoder :=
  { Decoder.reset with
    state := .waitEndBit, curPre := 17, primed := true, lastT := 7318, level := true, halfPending := true
    halfClass := .one, buf := [(0, 0x55), (1, 0xAA), (2, 0xFF)], len := 3 }

/-- P1 command 95, then the response of its command 96: V-D1. -/
theorem test_edge_delivers_and_readPacket :
    reply 0x02000000000000000000000000 (after (.edge 7376 0) (withDecoder beforeEnd))
      = some ⟨.ok, 0x00011103, 7376, 0x00FFAA55, 0⟩ := by decide

/-- V-D28: eight bytes at `P_MAX_LEN` = 8. -/
theorem test_readPacket_eight_bytes :
    reply 0x02000000000000000000000000
      { State.resetWith { Params.default with maxLen := 8 } with
        dec := { Decoder.reset with
          buf := [(0, 1), (1, 2), (2, 4), (3, 8), (4, 16), (5, 32), (6, 64), (7, 127)]
          len := 8, ready := true, pktTime := 0x3FB8, pktPre := 17 } }
      = some ⟨.ok, 0x00011108, 0x00003FB8, 0x08040201, 0x7F402010⟩ := by decide

/-- V-D42: the response shows `ready` = 1, and only `ready` is cleared. -/
theorem test_readClear :
    (ran 0x03000000000000000000000000 (withDecoder { beforeEnd with ready := true, pktTime := 7376, pktPre := 17 })).map
        (fun t => (t.response.map (fun r => r.r0), t.dec))
      = some (some 0x13011103, { beforeEnd with pktTime := 7376, pktPre := 17 }) := by decide

/-- V-D43. -/
theorem test_clearReady :
    (ran 0x04000000000000000000000000 (withDecoder { beforeEnd with ready := true })).map (fun t => (t.response, t.dec))
      = some (some ⟨.ok, 0, 0, 0, 0⟩, beforeEnd) := by decide

/-- One step from reset with ENC6 0x0F placed at the fetch runs it (V-B5). -/
theorem test_step_runs_the_fetched_command :
    (stepped (State.reset.withFetchWord 104 (0x10 + 0x0F * 2 ^ 8))).map (fun t => (t.response, t.schedule))
      = some (some ⟨.ok, 0xB1, 0, 0, 0⟩, []) := by decide

/-- The text of P5's first lines, and two commands of parts 1 and 2. -/
theorem test_assembler_text :
    assembleText ⟨0, true⟩
        [".level 0", "", " .time 1000 ; start", "H 58", "ENC6 0x0F", "CUTOUT_STD 7376, 1, 7400"]
      = some [0x01000003E80000000000000000, 0x01000004220000000100000000, 0x100000000F0000000000000000,
        0x1C00001CD00000000100001CE8] := by decide

/-! ## 4. Witnesses: every hypothesis of a statement can be met, each clause at a boundary -/

/-- Two commands of one agent and one of another, interleaved, and a fourth agent's event with nothing to present. -/
def busyPort : State :=
  { State.reset with
    edgeStream := [0x01000003E80000000000000000, 0x01000004220000000100000000]
    clientStream := [0xFF000000000000000000000000]
    schedule := [.present .edgeSource, .present .encoderClient, .present .edgeSource] }

theorem witness_DecodeOfEncode : (Instr.longAddr 0xFF 0x00 0x01).wf = true := by decide

theorem witness_Unassigned_at_the_bounds :
    Unassigned 0x00 ∧ Unassigned 0x05 ∧ Unassigned 0x0F ∧ Unassigned 0x1D ∧ Unassigned 0xFF
      ∧ ¬ Unassigned 0x01 ∧ ¬ Unassigned 0x04 ∧ ¬ Unassigned 0x10 ∧ ¬ Unassigned 0x1C := by
  unfold Unassigned; decide

theorem witness_EncodedAs :
    opField 0x100000000F0000000000000000 = 0x10 ∧ opField 0x1C00001CD00000000300001CE8 = 0x1C := by decide

theorem witness_StepRunsTheDecodedCommand :
    busyPort.params.wf = true ∧ busyPort.rst = false
      ∧ busyPort.schedule = .present .edgeSource :: [.present .encoderClient, .present .edgeSource]
      ∧ busyPort.stream .edgeSource = 0x01000003E80000000000000000 :: [0x01000004220000000100000000]
      ∧ read 0x01000003E80000000000000000 = some (.edge 1000 0) := by decide

theorem witness_StepRunsTheDecodedCommand_unassigned :
    let s := { busyPort with schedule := [.present .encoderClient] }
    s.params.wf = true ∧ s.rst = false ∧ s.schedule = .present .encoderClient :: []
      ∧ s.stream .encoderClient = 0xFF000000000000000000000000 :: []
      ∧ read 0xFF000000000000000000000000 = none := by decide

theorem witness_WithoutACommand :
    State.reset.params.wf = true ∧ State.reset.schedule = []
      ∧ ({ State.reset with schedule := [.present .consumer] } : State).stream .consumer = [] := by decide

theorem witness_EveryInterleavingIsARun :
    let order : List (Agent × CmdWord) := [(.edgeSource, 0x01000003E80000000000000000),
      (.encoderClient, 0xFF000000000000000000000000), (.edgeSource, 0x01000004220000000100000000)]
    busyPort.params.wf = true ∧ busyPort.rst = false
      ∧ busyPort.schedule = order.map (fun c => PortEvent.present c.1)
      ∧ ∀ a, busyPort.stream a = (order.filter fun c => c.1 == a).map fun c => c.2 :=
  ⟨by decide, by decide, by decide, by intro a; cases a <;> decide⟩

theorem witness_StepGoesOnExactly :
    State.reset.params.wf = true ∧ (State.resetWith { Params.default with maxLen := 9 }).params.wf = false := by decide

theorem witness_ResetInput_low :
    let s := { busyPort with schedule := [.setRst true, .present .edgeSource] }
    let u := { busyPort with schedule := [.setRst false] }
    s.params.wf = true ∧ s.rst = false ∧ s.schedule = .setRst true :: [.present .edgeSource]
      ∧ u.params.wf = true ∧ u.rst = false ∧ u.schedule = .setRst false :: [] := by decide

theorem witness_ResetInput_asserted :
    let s := { withDecoder beforeEnd with rst := true, schedule := [.setRst false] }
    let u := { busyPort with rst := true }
    let v := { busyPort with rst := true, schedule := [.setRst true] }
    s.params.wf = true ∧ s.rst = true ∧ s.schedule = .setRst false :: []
      ∧ u.params.wf = true ∧ u.rst = true ∧ u.schedule = .present .edgeSource :: u.schedule.tail
      ∧ v.params.wf = true ∧ v.rst = true ∧ v.schedule = .setRst true :: [] := by decide

/-- 70_reset_and_hazards.md R190: an event asserts `rst`, with the decoder as it was. -/
theorem test_rst_is_asserted :
    (stepped { withDecoder beforeEnd with schedule := [.setRst true] }).map (fun t => (t.rst, t.dec))
      = some (true, beforeEnd) := by decide

theorem witness_Entries : rom 0x3F = 0x33 ∧ rom 0x00 = 0xAC := by decide

/-- 0x87 has four set bits and is no entry (20_memory.md R48). -/
theorem witness_not_IsEntry : ¬ IsEntry 0x87 := by
  unfold IsEntry; decide

theorem witness_Dec16_one_bad_symbol : ¬ (IsEntry 0x87 ∧ IsEntry 0xAC) ∧ ¬ (IsEntry 0xAC ∧ IsEntry 0x87) :=
  ⟨fun h => witness_not_IsEntry h.1, fun h => witness_not_IsEntry h.2⟩

theorem witness_Dec24_middle_symbol : ¬ (IsEntry 0xAC ∧ IsEntry 0x87 ∧ IsEntry 0xAC) :=
  fun h => witness_not_IsEntry h.2.1

theorem witness_Dec32_lowest_symbol : ¬ (IsEntry 0xAC ∧ IsEntry 0xAC ∧ IsEntry 0xAC ∧ IsEntry 0x87) :=
  fun h => witness_not_IsEntry h.2.2.2

theorem witness_PackingIsInjective : exec (.enc12 0xF 0xFF) State.reset = exec (.enc12 0xF 0xFF) State.reset := rfl

theorem witness_cycle_parity : (0xFE : Byte).toNat % 2 = 0 ∧ (0xFF : Byte).toNat % 2 = 1 := by decide

theorem witness_EncoderCommandsReadAndWriteNoState :
    EncoderCommand (.dec8 0x87) ∧ State.reset.params = (withDecoder beforeEnd).params
      ∧ State.reset.draws = (withDecoder beforeEnd).draws ∧ State.reset.dec ≠ (withDecoder beforeEnd).dec :=
  ⟨trivial, by decide, by decide, by decide⟩

theorem witness_OnlyEdgeMoves : ∀ now lvl, Instr.readClear ≠ .edge now lvl := by
  intro now lvl h; cases h

theorem witness_EdgeAlwaysCompletes :
    Memory.wf beforeEnd.buf = true ∧ ({ beforeEnd with ready := true } : Decoder).ready = true
      ∧ 3 ≠ ({ beforeEnd with len := 2 } : Decoder).len.toNat := by decide

theorem witness_Classify_at_the_bounds :
    Params.default.wf = true
      ∧ (51 : Word).toNat < Params.default.oneMin ∧ (52 : Word).toNat = Params.default.oneMin
      ∧ (79 : Word).toNat < Params.default.split ∧ (80 : Word).toNat = Params.default.split
      ∧ (10000 : Word).toNat = Params.default.zeroMax ∧ Params.default.zeroMax < (10001 : Word).toNat := by decide

theorem witness_FirstEdge : State.reset.dec.primed = false := by decide

theorem witness_InvalidInterval :
    let s := withDecoder { beforeEnd with lastT := 0xFFFFFFFF }
    s.dec.primed = true ∧ classify s.params (measured s 0x32) = .invalid := by decide

theorem witness_FirstHalf :
    let s := withDecoder hunting
    s.dec.primed = true ∧ s.dec.halfPending = false
      ∧ classify s.params (measured s 1052) = .valid .one ∧ classify s.params (measured s 11000) = .valid .zero := by decide

theorem witness_MismatchedHalf :
    let s := withDecoder beforeEnd
    let u := { s with params := { Params.default with mismatchPolicy := .dropBoth } }
    s.dec.primed = true ∧ s.dec.halfPending = true ∧ classify s.params (measured s 7398) = .valid .zero
      ∧ s.dec.halfClass ≠ .zero ∧ s.params.mismatchPolicy = .keepSecond
      ∧ u.dec.primed = true ∧ u.dec.halfPending = true ∧ classify u.params (measured u 7398) = .valid .zero
      ∧ u.dec.halfClass ≠ .zero ∧ u.params.mismatchPolicy = .dropBoth := by decide

/-- A one-half waits, in `WaitPreamble`, with `n` one-bits counted. -/
def oneHalf (n : BitVec 8) : State :=
  withDecoder { hunting with preCnt := n, halfPending := true, halfClass := .one }

/-- A zero-half waits, in `WaitPreamble`, with `n` one-bits counted. -/
def zeroHalf (n : BitVec 8) : State :=
  withDecoder { hunting with preCnt := n, halfPending := true, halfClass := .zero }

theorem witness_PreambleOneBit :
    (oneHalf 16).params.wf = true ∧ ClosesBit (oneHalf 16) 1058 true ∧ (oneHalf 16).dec.state = .waitPreamble
      ∧ ClosesBit (oneHalf 17) 1058 true := by
  unfold ClosesBit; decide

theorem witness_PreambleZeroBit :
    ClosesBit (zeroHalf 17) 1100 false ∧ (zeroHalf 17).dec.state = .waitPreamble
      ∧ (zeroHalf 17).params.preambleMin ≤ (zeroHalf 17).dec.preCnt.toNat
      ∧ ClosesBit (zeroHalf 16) 1100 false ∧ (zeroHalf 16).dec.state = .waitPreamble
      ∧ (zeroHalf 16).dec.preCnt.toNat < (zeroHalf 16).params.preambleMin := by
  unfold ClosesBit; decide

/-- A one-half of data bit `n` waits, `len` bytes stored. -/
def dataHalf (n : BitVec 3) (len : BitVec 4) : State :=
  withDecoder { hunting with
    state := .waitData, curPre := 17, halfPending := true, halfClass := .one, bitCnt := n, curByte := 0x2A, len := len }

theorem witness_DataBit_shift :
    ClosesBit (dataHalf 6 5) 1058 true ∧ (dataHalf 6 5).dec.state = .waitData
      ∧ (0x55 : Byte).toNat = (2 * (dataHalf 6 5).dec.curByte.toNat + true.toNat) % 256
      ∧ (dataHalf 6 5).dec.bitCnt.toNat < 7 := by
  unfold ClosesBit; decide

theorem witness_DataBit_overflow :
    ClosesBit (dataHalf 7 6) 1058 true ∧ (dataHalf 7 6).dec.state = .waitData
      ∧ (0x55 : Byte).toNat = (2 * (dataHalf 7 6).dec.curByte.toNat + true.toNat) % 256
      ∧ (dataHalf 7 6).dec.bitCnt = 7 ∧ (dataHalf 7 6).dec.len.toNat = (dataHalf 7 6).params.maxLen := by
  unfold ClosesBit; decide

theorem witness_DataBit_store :
    ClosesBit (dataHalf 7 5) 1058 true ∧ (dataHalf 7 5).dec.state = .waitData
      ∧ (0x55 : Byte).toNat = (2 * (dataHalf 7 5).dec.curByte.toNat + true.toNat) % 256
      ∧ (dataHalf 7 5).dec.bitCnt = 7 ∧ (dataHalf 7 5).dec.len.toNat < (dataHalf 7 5).params.maxLen
      ∧ Memory.wf (dataHalf 7 5).dec.buf = true := by
  unfold ClosesBit; decide

theorem witness_EndBitZero :
    let s := withDecoder { beforeEnd with halfClass := .zero }
    ClosesBit s 7418 false ∧ s.dec.state = .waitEndBit := by
  unfold ClosesBit; decide

theorem witness_EndBitOne :
    let s := withDecoder beforeEnd
    let u := { withDecoder { beforeEnd with xorSum := 1 } with params := { Params.default with endBitInPreamble := true } }
    s.params.wf = true ∧ ClosesBit s 7376 true ∧ s.dec.state = .waitEndBit ∧ s.dec.xorSum = 0
      ∧ u.params.wf = true ∧ ClosesBit u 7376 true ∧ u.dec.state = .waitEndBit ∧ u.dec.xorSum ≠ 0 := by
  unfold ClosesBit; decide

/-- The cause an EDGE takes. -/
def causeOf (s : State) (now : Word) : Option Cause := (edgeTransition s.params now false s.dec).2

/-- One primed state for each cause of 60_exceptions.md R171 that an EDGE can take. -/
theorem witness_EdgeTakesEachCause :
    causeOf (withDecoder hunting) 1051 = some .e1 ∧ causeOf (oneHalf 16) 1080 = some .e2
      ∧ causeOf (dataHalf 7 6) 1058 = some .e3 ∧ causeOf (withDecoder { beforeEnd with xorSum := 1 }) 7376 = some .e4
      ∧ causeOf (withDecoder beforeEnd) 7376 = none := by decide

/-! The invariant -/

theorem witness_BlockInv_reset : BlockInv State.reset where
  params := by decide
  control := ⟨by decide, by decide, by decide, by decide, by decide, by decide⟩
  buffer := ⟨by decide, fun _ _ => rfl⟩
  checksum := by unfold ChecksumInv; decide
  preamble := ⟨by decide, by decide, by decide, by decide⟩

/-- The invariant holds in P1's state before its last EDGE, with `ready` = 0, and that EDGE raises `ready`. -/
theorem witness_ReadyRisesExactly : BlockInv (withDecoder beforeEnd) ∧ (withDecoder beforeEnd).dec.ready = false
    ∧ (after (.edge 7376 0) (withDecoder beforeEnd)).dec.ready = true :=
  ⟨{ params := by decide
     control := ⟨by decide, by decide, by decide, by decide, by decide, by decide⟩
     buffer := ⟨by decide, by
      intro i hi
      simp only [withDecoder, State.reset, State.resetWith, Params.default] at hi
      simp only [withDecoder, beforeEnd, bufRead, Memory.read]
      rw [if_neg (by omega), if_neg (by omega), if_neg (by omega)]; rfl⟩
     checksum := by unfold ChecksumInv; decide
     preamble := ⟨by decide, by decide, by decide, by decide⟩ }, by decide, by decide⟩

/-- Between two bits of a packet, ready for the byte that fills the buffer. -/
def beforeByte : State :=
  { withDecoder { hunting with state := .waitData, curPre := 17, len := 0 } with
    params := { Params.default with maxLen := 1 } }

/-- The EDGEs of half-bits of the given lengths, from time 1000. -/
def edgesOf (bits : List Bool) : List (Word × BitVec 1) :=
  (asmHalves ⟨1000, false⟩ (bits.flatMap asmBit)).2.map fun i =>
    match i with
    | .edge now lvl => (now, lvl)
    | _ => (0, 0)

theorem witness_EightBits :
    BlockInv beforeByte ∧ BetweenBits beforeByte ∧ beforeByte.dec.state = .waitData ∧ beforeByte.dec.bitCnt = 0
      ∧ beforeByte.dec.len.toNat < beforeByte.params.maxLen
      ∧ Carries beforeByte (edgesOf (bitsOfByte 0x55)) (bitsOfByte 0x55) :=
  ⟨{ params := by decide
     control := ⟨by decide, by decide, by decide, by decide, by decide, by decide⟩
     buffer := ⟨by decide, fun _ _ => rfl⟩
     checksum := by unfold ChecksumInv; decide
     preamble := ⟨by decide, by decide, by decide, by decide⟩ },
   by unfold BetweenBits; decide, by decide, by decide, by decide, by unfold Carries; decide⟩

/-- A block that one preamble bit satisfies. -/
def shortPreamble : Params := { Params.default with preambleMin := 1, preambleCap := 1, maxLen := 1 }

/-- Its state between bits, nothing counted yet. -/
def shortHunting : State := { withDecoder hunting with params := shortPreamble }

/-- One clause with checksum 0 (V-D24's byte 0x00), one with checksum 0xFF (V-D25's byte). -/
theorem witness_AWellFramedPacket :
    BlockInv shortHunting ∧ BetweenBits shortHunting ∧ shortHunting.dec.state = .waitPreamble
      ∧ shortHunting.params.preambleMin ≤ shortHunting.dec.preCnt.toNat + 1
      ∧ [(0x00 : Byte)].length = shortHunting.params.maxLen
      ∧ Carries shortHunting ((edgesOf (bitsOfPacket 1 [0x00])).dropLast ++ [(3032, 0)]) (bitsOfPacket 1 [0x00])
      ∧ [(0x00 : Byte)].foldl (fun x v => x ^^^ v) 0 = 0
      ∧ Carries shortHunting ((edgesOf (bitsOfPacket 1 [0xFF])).dropLast ++ [(2360, 0)]) (bitsOfPacket 1 [0xFF])
      ∧ [(0xFF : Byte)].foldl (fun x v => x ^^^ v) 0 ≠ 0 :=
  ⟨{ params := by decide
     control := ⟨by decide, by decide, by decide, by decide, by decide, by decide⟩
     buffer := ⟨by decide, fun _ _ => rfl⟩
     checksum := by unfold ChecksumInv; decide
     preamble := ⟨by decide, by decide, by decide, by decide⟩ },
   by unfold BetweenBits; decide, by decide, by decide, by decide, by unfold Carries; decide, by decide,
   by unfold Carries; decide, by decide⟩

/-- The first EDGE primes, and 2(1 + 1 + 9) more deliver a packet at `P_PREAMBLE_MIN` = 1: `ready` rises at the EDGE
numbered 23, the bound of 70_reset_and_hazards.md R195. -/
theorem witness_ReadyRisesNoEarlier :
    let es := (1000, 0) :: (edgesOf (bitsOfPacket 1 [0x00])).dropLast
    shortPreamble.wf = true ∧ (afterEdges (State.resetWith shortPreamble) es).dec.ready = false
      ∧ (afterEdges (State.resetWith shortPreamble) (es ++ [(3032, 0)])).dec.ready = true
      ∧ (es ++ [((3032 : Word), (0 : BitVec 1))]).length = 23 := by decide

/-- Reset at `P_PREAMBLE_MIN` = 1, the second packet of a run: the first is read and cleared between their EDGEs. -/
theorem witness_ReadyRisesOnlyAfter :
    let s := State.resetWith shortPreamble
    let first := (edgesOf (bitsOfPacket 1 [0x00])).map fun e => Instr.edge e.1 e.2
    let second := (edgesOf (bitsOfPacket 1 [0x00])).map fun e => Instr.edge (e.1 + 2032) e.2
    let cmds := (Instr.edge 1000 0 :: first) ++ [.readClear] ++ second.dropLast
    BlockInv s ∧ s.dec.state = .waitPreamble ∧ s.dec.halfPending = false
      ∧ (afterAll s (.edge 1000 0 :: first)).dec.ready = true
      ∧ (afterAll s cmds).dec.ready = false ∧ (afterAll s (cmds ++ [.edge 5064 0])).dec.ready = true :=
  ⟨{ params := by decide
     control := ⟨by decide, by decide, by decide, by decide, by decide, by decide⟩
     buffer := ⟨by decide, fun _ _ => rfl⟩
     checksum := by unfold ChecksumInv; decide
     preamble := ⟨by decide, by decide, by decide, by decide⟩ },
   by decide, by decide, by decide, by decide, by decide⟩

/-- `P_PREAMBLE_MIN` = 17: a window of 35 EDGEs, or of 33 where the end bit counts; two of them here. -/
theorem witness_PacketStays :
    let s := withDecoder beforeEnd
    let u := { s with params := { Params.default with endBitInPreamble := true } }
    s.params.wf = true ∧ s.dec.ready = false ∧ (after (.edge 7376 0) s).dec.ready = true
      ∧ [((7434 : Word), (1 : BitVec 1)), (7492, 0)].length
          < (if s.params.endBitInPreamble then 2 * s.params.preambleMin else 2 * (s.params.preambleMin + 1))
      ∧ u.params.wf = true ∧ u.dec.ready = false ∧ (after (.edge 7376 0) u).dec.ready = true
      ∧ [((7434 : Word), (1 : BitVec 1)), (7492, 0)].length
          < (if u.params.endBitInPreamble then 2 * u.params.preambleMin else 2 * (u.params.preambleMin + 1)) := by decide

theorem witness_PacketLine : 1 ≤ [(0x00 : Byte)].length := by decide

end Sys2Proof.Tests
end

/-! Proofs. Every command answers and keeps the parameters, so `step` refuses nothing but a parameter set that breaks a
constraint. -/

namespace Sys2Proof.Machine

@[simp] theorem respondLookup_params (r : Option Word) (s : State) : (respondLookup r s).params = s.params := by
  obtain ⟨-, hparams, -⟩ := respondLookup_fields r s
  exact hparams

@[simp] theorem respondPacket_params (s : State) : (respondPacket s).params = s.params := rfl

@[simp] theorem driveRst_params (asserted : Bool) (s : State) : (driveRst asserted s).params = s.params := by
  unfold driveRst
  split <;> rfl

@[simp] theorem acceptCommand_params (a : Agent) (cws : List CmdWord) (rest : List PortEvent) (s : State) :
    (acceptCommand a cws rest s).params = s.params :=
  State.withStream_params (s.beginEvent rest) a cws

/-- The machine goes on, with the parameters `P`. -/
def GoesOnWith (P : Params) (o : Host.Outcome State Fault Refusal) : Prop := ∃ t, o = .next t ∧ t.params = P

/-- Every command goes on and leaves the parameter set alone: all but EDGE, READ_CLEAR and CLEAR_READY only answer, and
those three change the decoder besides. -/
theorem exec_goesOn (i : Instr) (s : State) : GoesOnWith s.params (exec i s) := by
  cases i with
  | edge | readPacket | readClear | clearReady => exact ⟨_, rfl, rfl⟩
  | enc6 | enc12 | enc18 | enc24 => exact ⟨_, rfl, respondOk_params _ s⟩
  | dec8 | dec16 | dec24 | dec32 => exact ⟨_, rfl, respondLookup_params _ s⟩
  | shortAddr | longAddr | sentinel | cutout | cutoutStd => exact ⟨_, rfl, respondOk_params _ s⟩

/-- A command word goes on whether or not its opcode is assigned (30_encoding.md R73). -/
theorem runCommand_goesOn (cw : CmdWord) (s : State) : GoesOnWith s.params (runCommand cw s) := by
  unfold runCommand
  split
  next i _ => exact exec_goesOn i s
  next => exact ⟨_, rfl, respondIllegal_params s⟩

/-- With admitted parameters each event the schedule can bring goes on. -/
theorem step_goesOn (s : State) (h : s.params.wf = true) : GoesOnWith s.params (step s) := by
  rw [step_of_wf s h]
  have effect := fetch_effect s
  generalize fetch s = brought at effect ⊢
  cases effect with
  | nothing => exact ⟨_, rfl, State.beginEvent_params s []⟩
  | driven asserted rest => exact ⟨_, rfl, driveRst_params asserted (s.beginEvent rest)⟩
  | held a rest => exact ⟨_, rfl, State.beginEvent_params s rest⟩
  | absent a rest => exact ⟨_, rfl, State.beginEvent_params s rest⟩
  | accepted a rest cw cws => simpa using runCommand_goesOn cw (acceptCommand a cws rest s)

/-- A step with a parameter set that breaks a constraint is refused. -/
theorem step_of_not_wf (s : State) (h : s.params.wf = false) : step s = .refused .badParameters :=
  if_neg (by simp [h])

/-- Settles O9: by the case of the next event, and of the command it brings. -/
theorem stepGoesOnExactlyWithAdmittedParameters : Obligations.StepGoesOnExactlyWithAdmittedParameters :=
  fun s => ⟨step_goesOn s, step_of_not_wf s⟩

end Sys2Proof.Machine

/-! Proofs about the state of the block: what a step can do to the decoder, that each of those moves keeps the invariant
of 10_state.md R42, what the reset input does, and that an encoder command reads and writes no state. -/

namespace Sys2Proof

/-- The constraints of 00_scope.md R8, as propositions. -/
theorem Params.wf_iff (P : Params) :
    P.wf = true ↔ P.oneMin < P.split ∧ P.split ≤ P.zeroMax ∧ P.zeroMax < 2 ^ 32 ∧ 1 ≤ P.preambleMin
      ∧ P.preambleMin ≤ P.preambleCap ∧ P.preambleCap ≤ 255 ∧ 1 ≤ P.maxLen ∧ P.maxLen ≤ 8
      ∧ P.ch1Offset < P.ch2Offset ∧ P.ch2Offset < 2 ^ 32 := by
  simp [Params.wf, and_assoc]

theorem Params.maxLen_le_of_wf {P : Params} (h : P.wf = true) : P.maxLen ≤ 8 := by
  obtain ⟨-, -, -, -, -, -, -, hlen, -⟩ := P.wf_iff.1 h
  exact hlen

end Sys2Proof

namespace Sys2Proof.Machine

/-! ## What a step can do to the decoder -/

/-- The four things a step can do to a decoder: an EDGE makes its transition, READ_CLEAR and CLEAR_READY clear `ready`, the
release of `rst` writes the reset values, and every other step leaves it. -/
inductive DecoderMove (P : Params) (d : Decoder) : Decoder → Prop where
  | kept : DecoderMove P d d
  | cleared : DecoderMove P d (clearReadyFlag d)
  | edged (now : Word) (lvl : Bool) : DecoderMove P d (edgeTransition P now lvl d).1
  | reset : DecoderMove P d Decoder.reset

/-- The machine goes on, its decoder moved from `d` and its parameters `P`. -/
def MovesFrom (P : Params) (d : Decoder) (o : Host.Outcome State Fault Refusal) : Prop :=
  ∃ t, o = .next t ∧ t.params = P ∧ DecoderMove P d t.dec

/-- An outcome that only leaves a decoder as it was is a move. -/
theorem movesFrom_of_dec_eq {s t : State} (hparams : t.params = s.params) (hdec : t.dec = s.dec) :
    MovesFrom s.params s.dec (.next t) :=
  ⟨t, rfl, hparams, hdec ▸ .kept⟩

@[simp] theorem respondLookup_dec (r : Option Word) (s : State) : (respondLookup r s).dec = s.dec := by
  obtain ⟨hdec, -⟩ := respondLookup_fields r s
  exact hdec

theorem exec_moves (i : Instr) (s : State) : MovesFrom s.params s.dec (exec i s) := by
  cases i with
  | edge now lvl => exact ⟨_, rfl, rfl, .edged now (bit lvl)⟩
  | readClear | clearReady => exact ⟨_, rfl, rfl, .cleared⟩
  | readPacket => exact movesFrom_of_dec_eq rfl rfl
  | dec8 | dec16 | dec24 | dec32 => exact movesFrom_of_dec_eq (respondLookup_params _ s) (respondLookup_dec _ s)
  | enc6 | enc12 | enc18 | enc24 | shortAddr | longAddr | sentinel | cutout | cutoutStd =>
    exact movesFrom_of_dec_eq rfl rfl

theorem runCommand_moves (cw : CmdWord) (s : State) : MovesFrom s.params s.dec (runCommand cw s) := by
  unfold runCommand
  split
  next i _ => exact exec_moves i s
  next => exact movesFrom_of_dec_eq rfl rfl

@[simp] theorem acceptCommand_dec (a : Agent) (cws : List CmdWord) (rest : List PortEvent) (s : State) :
    (acceptCommand a cws rest s).dec = s.dec :=
  State.withStream_dec (s.beginEvent rest) a cws

/-- Driving the reset input writes the reset values or leaves the decoder. -/
theorem driveRst_moves (asserted : Bool) (s : State) : DecoderMove s.params s.dec (driveRst asserted s).dec := by
  unfold driveRst
  split
  · exact .reset
  · exact .kept

theorem step_moves (s : State) (h : s.params.wf = true) : MovesFrom s.params s.dec (step s) := by
  rw [step_of_wf s h]
  have effect := fetch_effect s
  generalize fetch s = brought at effect ⊢
  cases effect with
  | nothing | held | absent => exact movesFrom_of_dec_eq rfl rfl
  | driven asserted rest =>
    exact ⟨_, rfl, driveRst_params asserted (s.beginEvent rest), driveRst_moves asserted (s.beginEvent rest)⟩
  | accepted a rest cw cws => simpa using runCommand_moves cw (acceptCommand a cws rest s)

/-! ## The invariant of a decoder -/

/-- The part of `BlockInv` that speaks of the decoder, for the parameters `P`. -/
structure DecoderInv (P : Params) (d : Decoder) : Prop where
  control : ControlInv P d
  buffer : BufferInv P d
  checksum : ChecksumInv d
  preamble : PreambleInv P d

theorem blockInv_iff (s : State) : BlockInv s ↔ s.params.wf = true ∧ DecoderInv s.params s.dec :=
  ⟨fun h => ⟨h.params, h.control, h.buffer, h.checksum, h.preamble⟩,
    fun ⟨hwf, h⟩ => ⟨hwf, h.control, h.buffer, h.checksum, h.preamble⟩⟩

/-- In `WaitPreamble` R42 asks for the two bounds, and for no waiting half-bit before the first edge. -/
theorem controlInv_of_waitPreamble {P : Params} {d : Decoder} (hs : d.state = .waitPreamble)
    (hlen : d.len.toNat ≤ P.maxLen) (hpre : d.preCnt.toNat ≤ P.preambleCap)
    (hhalf : d.primed = false → d.halfPending = false) : ControlInv P d where
  lenFits := hlen
  preCntFits := hpre
  notStartBit := by simp [hs]
  endBitAfterByte := by simp [hs]
  curByteFits := by simp [hs]
  unprimed hp := ⟨hhalf hp, hs⟩

/-- At the start of a byte R42 asks for the two bounds, and for an edge to have primed the decoder. -/
theorem controlInv_of_byteStart {P : Params} {d : Decoder} (hs : d.state = .waitData)
    (hbyte : d.curByte = 0) (hlen : d.len.toNat ≤ P.maxLen) (hpre : d.preCnt.toNat ≤ P.preambleCap)
    (hp : d.primed = true) : ControlInv P d where
  lenFits := hlen
  preCntFits := hpre
  notStartBit := by simp [hs]
  endBitAfterByte := by simp [hs]
  curByteFits _ := by simp [hbyte]
  unprimed hn := by simp [hp] at hn

theorem reset_decoderInv (P : Params) : DecoderInv P Decoder.reset where
  control := controlInv_of_waitPreamble rfl (Nat.zero_le _) (Nat.zero_le _) fun _ => rfl
  buffer := ⟨rfl, fun _ _ => rfl⟩
  checksum := rfl
  preamble := ⟨Nat.zero_le _, Nat.zero_le _, by simp [Decoder.reset], by simp [Decoder.reset]⟩

section
variable {P : Params} {d : Decoder}

theorem clearReadyFlag_keeps (h : DecoderInv P d) : DecoderInv P (clearReadyFlag d) where
  control := { h.control with }
  buffer := { h.buffer with }
  checksum := h.checksum
  preamble := { h.preamble with published := by simp }

/-! ## Half-bit pairing keeps the invariant -/

theorem recordEdge_keeps (now : Word) (lvl : Bool) (h : DecoderInv P d) : DecoderInv P (recordEdge now lvl d) where
  control := { h.control with }
  buffer := { h.buffer with }
  checksum := h.checksum
  preamble := { h.preamble with }

theorem primed_keeps (h : DecoderInv P d) : DecoderInv P { d with primed := true } where
  control := { h.control with unprimed := by simp }
  buffer := { h.buffer with }
  checksum := h.checksum
  preamble := { h.preamble with }

theorem holdHalf_keeps (c : HalfClass) (hp : d.primed = true) (h : DecoderInv P d) : DecoderInv P (holdHalf c d) where
  control := { h.control with unprimed := by simp [hp] }
  buffer := { h.buffer with }
  checksum := h.checksum
  preamble := { h.preamble with }

theorem halfTaken_keeps (h : DecoderInv P d) : DecoderInv P { d with halfPending := false } where
  control := { h.control with unprimed hn := ⟨rfl, (h.control.unprimed hn).2⟩ }
  buffer := { h.buffer with }
  checksum := h.checksum
  preamble := { h.preamble with }

theorem discardPacket_keeps (cause : Cause) (h : DecoderInv P d) : DecoderInv P (discardPacket cause d).1 where
  control := controlInv_of_waitPreamble rfl h.control.lenFits (Nat.zero_le _) fun _ => rfl
  buffer := { h.buffer with }
  checksum := h.checksum
  preamble := { h.preamble with inPacket := by simp }

/-! ## A completed bit keeps the invariant -/

/-- The count saturates at the cap (44_bitstream_decoder.md R135). -/
theorem countPreamble_keeps (h : DecoderInv P d) : DecoderInv P (countPreamble P d) where
  control := { h.control with
    preCntFits := (Nat.mod_le _ _).trans (Nat.min_le_right _ _) }
  buffer := { h.buffer with }
  checksum := h.checksum
  preamble := { h.preamble with }

theorem restartPreamble_keeps (h : DecoderInv P d) : DecoderInv P { d with preCnt := 0 } where
  control := { h.control with preCntFits := Nat.zero_le _ }
  buffer := { h.buffer with }
  checksum := h.checksum
  preamble := { h.preamble with }

theorem startPacket_keeps (hp : d.primed = true) (hmin : P.preambleMin ≤ d.preCnt.toNat) (h : DecoderInv P d) :
    DecoderInv P (startPacket d) where
  control := controlInv_of_byteStart rfl rfl (Nat.zero_le _) (Nat.zero_le _) hp
  buffer := { h.buffer with }
  checksum := rfl
  preamble := { h.preamble with curPreFits := h.control.preCntFits, inPacket := fun _ => hmin }

/-- A byte of `n` bits has `n + 1` after one more is shifted in. -/
theorem shiftIn_lt (b : Bool) {n : Nat} (h : d.curByte.toNat < 2 ^ n) : (shiftIn b d).toNat < 2 ^ (n + 1) := by
  have shifted : d.curByte.toNat <<< 1 % 2 ^ 8 < 2 ^ (n + 1) :=
    (Nat.mod_le _ _).trans_lt (by rw [Nat.shiftLeft_eq, Nat.pow_succ]; omega)
  have bit : b.toNat % 2 ^ 8 < 2 ^ (n + 1) :=
    (Nat.mod_le _ _).trans_lt (b.toNat_lt.trans_le (Nat.pow_succ .. ▸ by have := Nat.two_pow_pos n; omega))
  simpa [shiftIn] using Nat.or_lt_two_pow shifted bit

theorem shiftIn_keeps (b : Bool) (hs : d.state = .waitData) (hc : d.bitCnt.toNat < 7) (h : DecoderInv P d) :
    DecoderInv P { d with curByte := shiftIn b d, bitCnt := d.bitCnt + 1 } where
  control := { h.control with
    endBitAfterByte := by simp [hs]
    curByteFits := fun _ => by
      have hcnt : (d.bitCnt + 1).toNat = d.bitCnt.toNat + 1 := BitVec.toNat_add_of_lt (by simp; omega)
      rw [hcnt]
      exact shiftIn_lt b (h.control.curByteFits hs) }
  buffer := { h.buffer with }
  checksum := h.checksum
  preamble := { h.preamble with }

theorem bufRead_storeByte (v : Byte) (i : Nat) (h : Memory.wf d.buf = true) :
    bufRead (storeByte v d) i = if i = d.len.toNat then v else bufRead d i :=
  bufRead_bufWrite d d.len.toNat i v h

/-- The stored byte joins the exclusive-or of the bytes before it, which the write leaves as they were. -/
theorem packetXor_storeByte (v : Byte) (h : Memory.wf d.buf = true) (hlen : (storeByte v d).len.toNat = d.len.toNat + 1) :
    packetXor (storeByte v d) = packetXor d ^^^ v := by
  have before : (List.range d.len.toNat).foldl (fun x i => x ^^^ bufRead (storeByte v d) i) 0 = packetXor d :=
    List.foldl_ext _ _ _ fun x i hi => by
      rw [bufRead_storeByte v i h, if_neg (List.mem_range.1 hi).ne]
  rw [packetXor, hlen, List.range_succ, List.foldl_append, before]
  simp [bufRead_storeByte v _ h]

theorem storeByte_keeps (v : Byte) (hwf : P.wf = true) (hp : d.primed = true) (hs : d.state = .waitData)
    (hl : d.len.toNat < P.maxLen) (h : DecoderInv P d) : DecoderInv P (storeByte v d) := by
  have hmax := Params.maxLen_le_of_wf hwf
  have hlen : (storeByte v d).len.toNat = d.len.toNat + 1 := BitVec.toNat_add_of_lt (by simp; omega)
  exact {
    control := {
      lenFits := by omega
      preCntFits := h.control.preCntFits
      notStartBit := by simp
      endBitAfterByte := fun _ => ⟨rfl, by omega⟩
      curByteFits := by simp
      unprimed := by simp [hp] }
    buffer := {
      canonical := Memory.wf_write _ _ _ h.buffer.canonical
      within := fun i hi => by
        rw [bufRead_storeByte v i h.buffer.canonical, if_neg (by omega)]
        exact h.buffer.within i hi }
    checksum := by
      rw [ChecksumInv, packetXor_storeByte v h.buffer.canonical hlen, ← h.checksum, storeByte_xorSum]
    preamble := { h.preamble with inPacket := fun _ => h.preamble.inPacket (.inl hs) } }

theorem continuePacket_keeps (hp : d.primed = true) (hs : d.state = .waitEndBit) (h : DecoderInv P d) :
    DecoderInv P (continuePacket d) where
  control := controlInv_of_byteStart rfl rfl h.control.lenFits h.control.preCntFits hp
  buffer := { h.buffer with }
  checksum := h.checksum
  preamble := { h.preamble with inPacket := fun _ => h.preamble.inPacket (.inr hs) }

/-- What is published is the preamble length of the packet that ends, which qualified (44_bitstream_decoder.md R139). -/
theorem publishPacket_keeps (now : Word) (hs : d.state = .waitEndBit) (h : DecoderInv P d) :
    DecoderInv P (publishPacket now d) where
  control := { h.control with }
  buffer := { h.buffer with }
  checksum := h.checksum
  preamble := { h.preamble with
    pktPreFits := h.preamble.curPreFits
    published := fun _ => h.preamble.inPacket (.inr hs) }

theorem preCntAfterEndBit_le (P : Params) : (preCntAfterEndBit P).toNat ≤ P.preambleCap := by
  unfold preCntAfterEndBit
  split
  · exact (Nat.mod_le _ _).trans (Nat.min_le_right _ _)
  · exact Nat.zero_le _

theorem leavePacket_keeps (hp : d.primed = true) (h : DecoderInv P d) : DecoderInv P (leavePacket P d) where
  control := controlInv_of_waitPreamble rfl h.control.lenFits (preCntAfterEndBit_le P) (by simp [hp])
  buffer := { h.buffer with }
  checksum := h.checksum
  preamble := { h.preamble with inPacket := by simp }

theorem bitEffect_keeps {b : Bool} {now : Word} {t : Transition} (hwf : P.wf = true)
    (effect : BitEffect P b now d t) (hp : d.primed = true) (h : DecoderInv P d) : DecoderInv P t.1 := by
  cases effect with
  | counted => exact countPreamble_keeps h
  | started _ _ hmin => exact startPacket_keeps hp hmin h
  | restarted => exact restartPreamble_keeps h
  | shifted hs hc => exact shiftIn_keeps b hs hc h
  | overflowed => exact discardPacket_keeps .e3 h
  | stored hs _ hl => exact storeByte_keeps _ hwf hp hs hl h
  | continued hs => exact continuePacket_keeps hp hs h
  | published hs => exact leavePacket_keeps hp (publishPacket_keeps now hs h)
  | dropped => exact leavePacket_keeps hp h

/-! ## A step keeps the invariant -/

theorem edgeTransition_keeps (now : Word) (lvl : Bool) (hwf : P.wf = true) (h : DecoderInv P d) :
    DecoderInv P (edgeTransition P now lvl d).1 := by
  have recorded : DecoderInv P (recordEdge now lvl d) := recordEdge_keeps now lvl h
  have effect := edgeTransition_effect P now lvl d
  generalize edgeTransition P now lvl d = t at effect ⊢
  cases effect with
  | primes => exact primed_keeps recorded
  | invalid => exact discardPacket_keeps .e1 recorded
  | firstHalf c hp => exact holdHalf_keeps c hp recorded
  | bit c hp _ _ _ completed => exact bitEffect_keeps hwf completed hp (halfTaken_keeps recorded)
  | keptSecond c hp => exact holdHalf_keeps c hp (discardPacket_keeps .e2 recorded)
  | droppedBoth => exact discardPacket_keeps .e2 recorded

theorem decoderMove_keeps {e : Decoder} (hwf : P.wf = true) (h : DecoderInv P d) (move : DecoderMove P d e) :
    DecoderInv P e := by
  cases move with
  | kept => exact h
  | cleared => exact clearReadyFlag_keeps h
  | edged now lvl => exact edgeTransition_keeps now lvl hwf h
  | reset => exact reset_decoderInv P

end

/-- Settles O52: a step goes on, and each of the four moves it can make with the decoder keeps the invariant. -/
theorem everyStepKeepsTheInvariant : Obligations.EveryStepKeepsTheInvariant := by
  intro s hs
  obtain ⟨hwf, h⟩ := (blockInv_iff s).1 hs
  obtain ⟨t, hstep, hparams, move⟩ := step_moves s hwf
  rw [hstep]
  exact (blockInv_iff t).2 (hparams ▸ ⟨hwf, decoderMove_keeps hwf h move⟩)

/-- Settles O53: the reset values meet the decoder's part of the invariant for any parameters. -/
theorem invariantHoldsAfterReset : Obligations.InvariantHoldsAfterReset :=
  fun P hwf => (blockInv_iff (State.resetWith P)).2 ⟨hwf, reset_decoderInv P⟩

/-! ## Encoder commands -/

/-- An encoder command answers a lookup that its operands and the parameters determine: no other part of the state is
read (43_reply_encoder.md R121). A command without a lookup always finds its result. -/
theorem exec_encoderCommand {i : Instr} (h : EncoderCommand i) :
    ∃ result : Params → Option Word, ∀ s, exec i s = .next (respondLookup (result s.params) s) := by
  cases i with
  | edge | readPacket | readClear | clearReady => exact h.elim
  | dec8 | dec16 | dec24 | dec32 => exact ⟨Function.const Params _, fun _ => rfl⟩
  | enc6 | enc12 | enc18 | enc24 | shortAddr | longAddr | sentinel | cutout =>
    exact ⟨Function.const Params (some _), fun _ => rfl⟩
  | cutoutStd endTime ch now =>
    exact ⟨fun P => some (cutoutRemaining endTime (channelOffset P ch) now), fun _ => rfl⟩

/-- The response to a lookup rests on nothing but its result and the counter of free values, and writes nothing else. -/
theorem respondLookup_response (r : Option Word) (n : Nat) :
    ∃ (answer : Response) (m : Nat),
      (∀ s : State, s.draws = n → respondLookup r s = { s with response := some answer, draws := m })
        ∧ answer.st ≠ .illegal ∧ answer.r1 = 0 ∧ answer.r2 = 0 ∧ answer.r3 = 0 := by
  cases r with
  | some v => exact ⟨⟨.ok, v, 0, 0, 0⟩, n, fun s hn => hn ▸ rfl, by simp⟩
  | none => exact ⟨⟨.nocode, Config.anyWord n, 0, 0, 0⟩, n + 1, fun s hn => hn ▸ rfl, by simp⟩

/-- Settles O31: both blocks answer the same lookup, and draw the same free value. -/
theorem encoderCommandsReadAndWriteNoState : Obligations.EncoderCommandsReadAndWriteNoState := by
  intro i s u hi hparams hdraws
  obtain ⟨result, hexec⟩ := exec_encoderCommand hi
  obtain ⟨answer, n, hrespond, hanswer⟩ := respondLookup_response (result s.params) s.draws
  refine ⟨answer, n, ?_, ?_, hanswer⟩
  · rw [hexec, hrespond s rfl]
  · rw [hexec, ← congrArg result hparams, hrespond u hdraws.symm]

/-! ## The reset input -/

theorem driveRst_true (s : State) : driveRst true s = { s with rst := true } := by simp [driveRst]

theorem driveRst_false_of_asserted {s : State} (h : s.rst = true) :
    driveRst false s = { s with dec := Decoder.reset, rst := false } := by simp [driveRst, h]

/-- Driving `rst` to the level it has changes nothing. -/
theorem driveRst_same {s : State} {level : Bool} (h : s.rst = level) : driveRst level s = s := by
  subst h
  simp [driveRst]

section
variable {s : State} {rest : List PortEvent} (hwf : s.params.wf = true)
include hwf

theorem step_setRst {level : Bool} (h : s.schedule = .setRst level :: rest) :
    step s = .next (driveRst level (s.beginEvent rest)) := by
  simp [step_of_wf s hwf, fetch, h]

/-- While `rst` is asserted a presented command is not accepted (log entry 5). -/
theorem step_present_of_asserted {a : Agent} (hr : s.rst = true) (h : s.schedule = .present a :: rest) :
    step s = .next (s.beginEvent rest) := by
  simp [step_of_wf s hwf, fetch, h, hr]

theorem step_setRst_same {level : Bool} (hr : s.rst = level) (h : s.schedule = .setRst level :: rest) :
    step s = .next (s.beginEvent rest) := by
  rw [step_setRst hwf h, driveRst_same (s := s.beginEvent rest) hr]

end

/-- Settles O10: by the event that is next, at each level of `rst`. -/
theorem resetInputHoldsAndResets : Obligations.ResetInputHoldsAndResets := by
  refine ⟨fun s rest hwf hr => ⟨fun h => ?_, step_setRst_same hwf hr⟩,
    fun s rest hwf hr => ⟨fun h => ?_, step_setRst_same hwf hr, fun _ => step_present_of_asserted hwf hr,
      Memory.read_nil⟩⟩
  · rw [step_setRst hwf h, driveRst_true]
    rfl
  · rw [step_setRst hwf h, driveRst_false_of_asserted (s := s.beginEvent rest) hr]
    rfl

end Sys2Proof.Machine

/-! Proofs about 20_memory.md: every order of the agents' commands is a run, the balanced-code table, what a second issue of
a command does, the frame of EDGE, and the delivery of a packet bit by bit. -/

namespace Sys2Proof.Machine

/-! ## A command acts on the block alone -/

/-- The response of READ_PACKET and READ_CLEAR (44_bitstream_decoder.md R143). -/
def packetResponse (P : Params) (d : Decoder) : Response :=
  let byte := packetByte P d
  ⟨.ok, packetStatusWord d, d.pktTime, wordOfBytes (byte 3) (byte 2) (byte 1) (byte 0),
    wordOfBytes (byte 7) (byte 6) (byte 5) (byte 4)⟩

theorem respondPacket_eq (s : State) :
    respondPacket s = { s with response := some (packetResponse s.params s.dec) } := rfl

/-- The parameters, the decoder and the count of free values determine what the operation writes: a decoder, a response
and a count. It neither reads nor writes a stream, the schedule, `rst` or the last response. -/
def ActsOnBlock (op : State → Host.Outcome State Fault Refusal) : Prop :=
  ∀ (P : Params) (d : Decoder) (n : Nat), ∃ (d' : Decoder) (r : Response) (n' : Nat), ∀ s : State,
    s.params = P → s.dec = d → s.draws = n → op s = .next { s with dec := d', response := some r, draws := n' }

/-- An encoder command answers a lookup; each of the other four commands is a function of decoder and parameters. -/
theorem exec_actsOnBlock (i : Instr) : ActsOnBlock (exec i) := by
  intro P d n
  by_cases hi : EncoderCommand i
  · obtain ⟨result, hexec⟩ := exec_encoderCommand hi
    obtain ⟨answer, m, hrespond, -⟩ := respondLookup_response (result P) n
    refine ⟨d, answer, m, ?_⟩
    rintro s rfl rfl hn
    rw [hexec, hrespond s hn]
  · cases i with
    | edge now lvl =>
      refine ⟨(edgeTransition P now (bit lvl) d).1, ⟨.ok, 0, 0, 0, 0⟩, n, ?_⟩
      rintro s rfl rfl rfl
      rfl
    | readPacket =>
      refine ⟨d, packetResponse P d, n, ?_⟩
      rintro s rfl rfl rfl
      rfl
    | readClear =>
      refine ⟨clearReadyFlag d, packetResponse P d, n, ?_⟩
      rintro s rfl rfl rfl
      rfl
    | clearReady =>
      refine ⟨clearReadyFlag d, ⟨.ok, 0, 0, 0, 0⟩, n, ?_⟩
      rintro s rfl rfl rfl
      rfl
    | _ => exact absurd trivial hi

theorem runCommand_actsOnBlock (cw : CmdWord) : ActsOnBlock (runCommand cw) := by
  unfold runCommand
  split
  next i _ => exact exec_actsOnBlock i
  next =>
    intro P d n
    refine ⟨d, ⟨.illegal, 0, 0, 0, 0⟩, n, ?_⟩
    rintro s rfl rfl rfl
    rfl

/-! ## Every order of the agents' commands is a run -/

/-- The block after an agent's command. -/
def afterWord (s : State) (c : Agent × CmdWord) : State :=
  match runCommand c.2 s with
  | .next t => t
  | .fault _ => s
  | .refused _ => s

/-- The block with nothing left to present. -/
def State.drained (s : State) : State :=
  { s with schedule := [], edgeStream := [], consumerStream := [], clientStream := [] }

/-- What a command word does to a state and to any other state with the same block. -/
theorem afterWord_eq (c : Agent × CmdWord) (s : State) :
    ∃ (d : Decoder) (r : Response) (n : Nat), ∀ u : State, u.params = s.params → u.dec = s.dec → u.draws = s.draws →
      runCommand c.2 u = .next (afterWord u c) ∧ afterWord u c = { u with dec := d, response := some r, draws := n } := by
  obtain ⟨d, r, n, h⟩ := runCommand_actsOnBlock c.2 s.params s.dec s.draws
  refine ⟨d, r, n, fun u hP hd hn => ?_⟩
  have hu := h u hP hd hn
  simp [afterWord, hu]

theorem afterWord_drained (s : State) (c : Agent × CmdWord) : afterWord s.drained c = (afterWord s c).drained := by
  obtain ⟨d, r, n, h⟩ := afterWord_eq c s
  rw [(h s.drained rfl rfl rfl).2, (h s rfl rfl rfl).2]
  rfl

/-- A command overwrites the response port. -/
theorem afterWord_response (s : State) (c : Agent × CmdWord) (r : Option Response) :
    afterWord { s with response := r } c = afterWord s c := by
  obtain ⟨d, _, n, h⟩ := afterWord_eq c s
  rw [(h { s with response := r } rfl rfl rfl).2, (h s rfl rfl rfl).2]

/-- A command leaves the parameters and the ports. -/
theorem afterWord_ports (s : State) (c : Agent × CmdWord) :
    (afterWord s c).params = s.params ∧ (afterWord s c).rst = s.rst ∧ (afterWord s c).schedule = s.schedule
      ∧ ∀ a, (afterWord s c).stream a = s.stream a := by
  obtain ⟨d, r, n, h⟩ := afterWord_eq c s
  rw [(h s rfl rfl rfl).2]
  exact ⟨rfl, rfl, rfl, fun a => by cases a <;> rfl⟩

theorem acceptCommand_drained (a : Agent) (cws : List CmdWord) (rest : List PortEvent) (s : State) :
    (acceptCommand a cws rest s).drained = { s.drained with response := none } := by
  cases a <;> rfl

/-- Draining a state whose command was taken off the streams leaves what the command does to the drained state. -/
theorem afterWord_acceptCommand_drained (c : Agent × CmdWord) (cws : List CmdWord) (rest : List PortEvent) (s : State) :
    (afterWord (acceptCommand c.1 cws rest s) c).drained = afterWord s.drained c := by
  rw [← afterWord_drained, acceptCommand_drained, afterWord_response]

theorem step_present {s : State} {c : Agent × CmdWord} {rest : List PortEvent} {cws : List CmdWord}
    (hwf : s.params.wf = true) (hr : s.rst = false) (hsched : s.schedule = .present c.1 :: rest)
    (hs : s.stream c.1 = c.2 :: cws) : step s = .next (afterWord (acceptCommand c.1 cws rest s) c) := by
  obtain ⟨d, r, n, h⟩ := afterWord_eq c (acceptCommand c.1 cws rest s)
  simp [step_of_wf s hwf, fetch, hsched, hr, hs, (h _ rfl rfl rfl).1]

/-- The commands of agent `a` in an order. -/
def wordsOf (a : Agent) (order : List (Agent × CmdWord)) : List CmdWord :=
  (order.filter fun c => c.1 == a).map fun c => c.2

/-- The ports hold an order: `rst` is low, the schedule is the order, and each stream its agent's part of it. -/
structure Presents (order : List (Agent × CmdWord)) (s : State) : Prop where
  wf : s.params.wf = true
  rst : s.rst = false
  schedule : s.schedule = order.map fun c => .present c.1
  streams : ∀ a, s.stream a = wordsOf a order

theorem drained_of_presents_nil {s : State} (h : Presents [] s) : s.drained = s := by
  have hedge : s.edgeStream = [] := h.streams .edgeSource
  have hconsumer : s.consumerStream = [] := h.streams .consumer
  have hclient : s.clientStream = [] := h.streams .encoderClient
  have hschedule : s.schedule = [] := h.schedule
  cases s
  simp_all [State.drained]

/-- A step takes the first command of the order, and the rest of the order stays at the ports. -/
theorem step_presents {c : Agent × CmdWord} {order : List (Agent × CmdWord)} {s : State} (h : Presents (c :: order) s) :
    ∃ t, step s = .next t ∧ Presents order t ∧ t.drained = afterWord s.drained c := by
  have hs : s.stream c.1 = c.2 :: wordsOf c.1 order := by simp [h.streams, wordsOf]
  refine ⟨_, step_present h.wf h.rst h.schedule hs, ?_, afterWord_acceptCommand_drained ..⟩
  obtain ⟨hparams, hrst, hsched, hstream⟩ := afterWord_ports (acceptCommand c.1 (wordsOf c.1 order) _ s) c
  refine ⟨?_, ?_, ?_, fun a => ?_⟩
  · rw [hparams, acceptCommand_params, h.wf]
  · rw [hrst, acceptCommand, State.withStream_rst, State.beginEvent_rst, h.rst]
  · rw [hsched, acceptCommand, State.withStream_schedule, State.beginEvent_schedule]
  · rw [hstream, acceptCommand]
    by_cases ha : a = c.1
    · rw [ha, State.withStream_same]
    · have kept : s.stream a = wordsOf a order := by simp [h.streams, wordsOf, Ne.symm ha]
      rw [State.withStream_other _ _ _ _ ha, ← kept]
      cases a <;> rfl

/-- Draining the ports after a run of commands is draining them before it. -/
theorem foldl_afterWord_drained (order : List (Agent × CmdWord)) (s : State) :
    order.foldl afterWord s.drained = (order.foldl afterWord s).drained :=
  List.foldl_hom State.drained afterWord_drained

/-- The block after `k` more steps. -/
def blockRun (k : Nat) (s : State) : Host.Outcome State Fault Refusal := Host.Core.run Sys2Proof.core k s

theorem blockRun_zero (s : State) : blockRun 0 s = .next s := rfl

theorem run_succ_of_step {M : Host.Core} {s t : M.State} (h : M.step s = .next t) (k : Nat) :
    M.run (k + 1) s = M.run k t := by
  simp only [Host.Core.run, h]

theorem blockRun_succ {s t : State} (h : step s = .next t) (k : Nat) : blockRun (k + 1) s = blockRun k t :=
  run_succ_of_step (M := Sys2Proof.core) h k

/-- A presented order runs to its end, with the effect of its commands one after another. -/
theorem blockRun_presents (order : List (Agent × CmdWord)) (s : State) (h : Presents order s) :
    blockRun order.length s = .next (order.foldl afterWord s.drained) := by
  induction order generalizing s with
  | nil => rw [List.length_nil, blockRun_zero, List.foldl_nil, drained_of_presents_nil h]
  | cons c order ih =>
    obtain ⟨t, hstep, ht, hdrained⟩ := step_presents h
    rw [List.length_cons, blockRun_succ hstep, ih t ht, hdrained, List.foldl_cons]

/-- Settles O8: by induction on the order; draining the ports at the end is draining them at the start, since no command
reads them. -/
theorem everyInterleavingIsARun : Obligations.EveryInterleavingIsARun := by
  intro order s hwf hr hsched hstreams
  have hrun := blockRun_presents order s ⟨hwf, hr, hsched, hstreams⟩
  rw [foldl_afterWord_drained] at hrun
  exact hrun

/-! ## The frame of EDGE -/

/-- What a completed bit leaves of a decoder. -/
structure BitFrame (P : Params) (d e : Decoder) : Prop where
  level : e.level = d.level
  lastT : e.lastT = d.lastT
  primed : e.primed = d.primed
  halfPending : d.halfPending = false → e.halfPending = false
  ready : d.ready = true → e.ready = true
  elsewhere : Memory.wf d.buf = true → ∀ i, i ≠ d.len.toNat → bufRead e i = bufRead d i
  beyond : Memory.wf d.buf = true → ∀ i, P.maxLen ≤ i → bufRead e i = bufRead d i

/-- A bit that stores no byte and does not clear `ready`. -/
theorem bitFrame_of_buf_eq {P : Params} {d e : Decoder} (hlevel : e.level = d.level) (hlast : e.lastT = d.lastT)
    (hprimed : e.primed = d.primed) (hhalf : d.halfPending = false → e.halfPending = false)
    (hready : d.ready = true → e.ready = true) (hbuf : e.buf = d.buf) : BitFrame P d e :=
  ⟨hlevel, hlast, hprimed, hhalf, hready, fun _ _ _ => by simp [bufRead, hbuf],
    fun _ _ _ => by simp [bufRead, hbuf]⟩

/-- Only a stored byte changes the buffer, at index `len`, which is below `P_MAX_LEN`. -/
theorem bitEffect_frame {P : Params} {b : Bool} {now : Word} {d : Decoder} {t : Transition}
    (effect : BitEffect P b now d t) : BitFrame P d t.1 := by
  cases effect with
  | stored _ _ hl =>
    refine ⟨rfl, rfl, rfl, id, id, fun hbuf i hi => ?_, fun hbuf i hi => ?_⟩
    · exact (bufRead_storeByte _ i hbuf).trans (if_neg hi)
    · exact (bufRead_storeByte _ i hbuf).trans (if_neg (by omega))
  | overflowed => exact bitFrame_of_buf_eq rfl rfl rfl (fun _ => rfl) id rfl
  | published => exact bitFrame_of_buf_eq rfl rfl rfl id (fun _ => rfl) rfl
  | counted | started | restarted | shifted | continued | dropped =>
    exact bitFrame_of_buf_eq rfl rfl rfl id id rfl

/-- What an EDGE records in a decoder, and what it leaves of it (44_bitstream_decoder.md R128). -/
structure EdgeFrame (P : Params) (now : Word) (lvl : Bool) (d e : Decoder) : Prop where
  level : e.level = lvl
  lastT : e.lastT = now
  primed : e.primed = true
  ready : d.ready = true → e.ready = true
  elsewhere : Memory.wf d.buf = true → ∀ i, i ≠ d.len.toNat → bufRead e i = bufRead d i
  beyond : Memory.wf d.buf = true → ∀ i, P.maxLen ≤ i → bufRead e i = bufRead d i

theorem edgeTransition_frame (P : Params) (now : Word) (lvl : Bool) (d : Decoder) :
    EdgeFrame P now lvl d (edgeTransition P now lvl d).1 := by
  have effect := edgeTransition_effect P now lvl d
  generalize edgeTransition P now lvl d = t at effect ⊢
  cases effect with
  | primes => exact ⟨rfl, rfl, rfl, id, fun _ _ _ => rfl, fun _ _ _ => rfl⟩
  | invalid hp | firstHalf _ hp | keptSecond _ hp | droppedBoth _ hp =>
    exact ⟨rfl, rfl, hp, id, fun _ _ _ => rfl, fun _ _ _ => rfl⟩
  | bit c hp _ _ _ completed =>
    have frame := bitEffect_frame completed
    exact ⟨frame.level, frame.lastT, frame.primed.trans hp, frame.ready, frame.elsewhere, frame.beyond⟩

/-- A word of opcode 0x01 is EDGE (30_encoding.md R71). -/
theorem edge_encodedAs : EncodedAs 0x01 fun a b _ => .edge a (b.extractLsb' 0 1) := by
  intro cw s hop
  have hdecode : decode cw = .ok (.edge (aField cw) ((bField cw).extractLsb' 0 1)) := by
    rw [decode, hop]
    rfl
  rw [runCommand, hdecode]

theorem bit_eq_true_iff (b : BitVec 1) : bit b = true ↔ b = 1 := by
  revert b
  decide

/-- Settles O37: by the cases of an EDGE, of which only a stored byte touches the buffer. -/
theorem edgeAlwaysCompletesWithinItsFrame : Obligations.EdgeAlwaysCompletesWithinItsFrame := by
  refine ⟨edge_encodedAs, fun s now lvl hbuf => ⟨_, exec_edge now lvl s, ?_⟩⟩
  have frame := edgeTransition_frame s.params now (bit lvl) s.dec
  exact ⟨by rw [frame.level, bit_eq_true_iff], frame.lastT, frame.primed, frame.ready, frame.elsewhere hbuf,
    frame.beyond hbuf⟩

/-! ## The balanced-code table -/

/-- The reverse search finds a position of the table that holds the symbol. -/
theorem getElem?_of_findSymbol {table : List Byte} {n k : Nat} {sym : Byte} (h : findSymbol table n sym = some k) :
    n ≤ k ∧ table[k - n]? = some sym := by
  induction table generalizing n with
  | nil => simp [findSymbol] at h
  | cons e es ih =>
    unfold findSymbol at h
    split at h
    next he =>
      obtain rfl : n = k := by simpa using h
      simp [he]
    next =>
      obtain ⟨hle, hget⟩ := ih h
      refine ⟨by omega, ?_⟩
      rwa [show k - n = (k - (n + 1)) + 1 by omega, List.getElem?_cons_succ]

theorem rom_of_romInverse {sym : Byte} {c : Code} (h : romInverse sym = some c) : rom c = sym := by
  obtain ⟨k, hfind, rfl⟩ := Option.map_eq_some_iff.1 h
  obtain ⟨-, hget⟩ := getElem?_of_findSymbol hfind
  rw [Nat.sub_zero] at hget
  have hk : k < 64 := (List.getElem?_eq_some_iff.1 hget).1
  simp [rom, Nat.mod_eq_of_lt hk, hget]

/-- DEC8 undoes ENC6 (41_balanced_code.md R88). -/
theorem romInverse_rom (c : Code) : romInverse (rom c) = some c := by
  revert c
  decide

theorem rom_injective {c c' : Code} (h : rom c = rom c') : c = c' :=
  Option.some.inj (by rw [← romInverse_rom, h, romInverse_rom])

/-- The entries are the bytes that the reverse search finds. -/
theorem isEntry_iff (b : Byte) : IsEntry b ↔ (romInverse b).isSome = true := by
  refine ⟨?_, fun h => ?_⟩
  · rintro ⟨c, rfl⟩
    rw [romInverse_rom, Option.isSome_some]
  · obtain ⟨c, hc⟩ := Option.isSome_iff_exists.1 h
    exact ⟨c, rom_of_romInverse hc⟩

theorem setBits_rom (c : Code) : setBits (rom c) = 4 := by
  revert c
  decide

theorem not_isEntry_sentinelSymbol (sel : BitVec 2) : ¬ IsEntry (sentinelSymbol sel) := by
  rw [isEntry_iff]
  revert sel
  decide

/-- Settles O11: the reverse search gives injectivity and shuts the sentinels out; the rest is the table itself. -/
theorem tableHasTheConfirmedEntriesAndProperties : Obligations.TableHasTheConfirmedEntriesAndProperties :=
  ⟨setBits_rom, fun _ _ => rom_injective, not_isEntry_sentinelSymbol, by decide⟩

/-- The bytes that the reverse search finds are those of 20_memory.md R48. -/
theorem romInverse_isSome_iff (b : Byte) : (romInverse b).isSome = true ↔
    setBits b = 4 ∧ b ≠ 0x0F ∧ b ≠ 0x3C ∧ b ≠ 0x87 ∧ b ≠ 0xC3 ∧ b ≠ 0xE1 ∧ b ≠ 0xF0 := by
  revert b
  decide

/-- Settles O12: by the reverse search for each byte. -/
theorem entriesAreTheFourBitBytesLessSix : Obligations.EntriesAreTheFourBitBytesLessSix :=
  fun b => (isEntry_iff b).trans (romInverse_isSome_iff b)

/-! ## A second issue of a command -/

/-- `ready` is bit 16 of the status word, and no other bit of it (44_bitstream_decoder.md R143). -/
theorem packetStatusWord_clearReadyFlag (d : Decoder) :
    packetStatusWord (clearReadyFlag d) = packetStatusWord d &&& 0xFFFEFFFF := by
  ext i hi
  by_cases h16 : i = 16
  · subst h16
    simp [packetStatusWord, zext32]
  · have mask : ∀ i (hi : i < 32), (0xFFFEFFFF#32)[i] = !decide (i = 16) := by decide
    have hready : (!decide (i < 16) && decide (i - 16 = 0)) = false := by simp; omega
    simp [packetStatusWord, zext32, mask i hi, h16, ← Bool.and_assoc, hready]

/-- Settles O36: a response is a function of the decoder and the parameters, of which READ_CLEAR changes `ready` alone. -/
theorem readsAreIdempotentAsTheRuleSays : Obligations.ReadsAreIdempotentAsTheRuleSays := by
  refine fun s => ⟨rfl, rfl, ⟨packetResponse s.params s.dec, packetResponse s.params (clearReadyFlag s.dec), rfl, rfl,
    packetStatusWord_clearReadyFlag s.dec, rfl, rfl, rfl, rfl⟩, fun now lvl => ?_⟩
  have frame := edgeTransition_frame s.params now (bit lvl) s.dec
  have hlast : (after (.edge now lvl) s).dec.lastT = now := frame.lastT
  exact ⟨frame.primed, by simp [measured, hlast]⟩

end Sys2Proof.Machine

/-! Proofs about what EDGEs carry: a run of EDGEs between bits acts as the bits it carries, eight of them store their byte,
and a well-framed packet is delivered. -/

namespace Sys2Proof.Machine

/-! ## The edges that carry bits -/

@[simp] theorem after_edge_params (e : Word × BitVec 1) (s : State) : (after (.edge e.1 e.2) s).params = s.params := rfl

@[simp] theorem after_edge_lastT (e : Word × BitVec 1) (s : State) : (after (.edge e.1 e.2) s).dec.lastT = e.1 :=
  (edgeTransition_frame s.params e.1 (bit e.2) s.dec).lastT

@[simp] theorem afterEdges_params (s : State) (es : List (Word × BitVec 1)) : (afterEdges s es).params = s.params := by
  induction es generalizing s with
  | nil => rfl
  | cons e es ih => rw [afterEdges_cons, ih, after_edge_params]

theorem halvesOfBits_cons (b : Bool) (bits : List Bool) :
    halvesOfBits (b :: bits) = .valid (classOfBit b) :: .valid (classOfBit b) :: halvesOfBits bits := rfl

theorem carries_nil_iff {s : State} {es : List (Word × BitVec 1)} : Carries s es [] ↔ es = [] := by
  cases es <;> simp [Carries, intervals, halvesOfBits]

theorem carries_pair_iff {s : State} {e₁ e₂ : Word × BitVec 1} {b : Bool} : Carries s [e₁, e₂] [b] ↔
    classify s.params (sub32 e₁.1 s.dec.lastT) = .valid (classOfBit b)
      ∧ classify s.params (sub32 e₂.1 e₁.1) = .valid (classOfBit b) := by
  simp [Carries, intervals, halvesOfBits]

/-- Two edges carry the first bit, and the edges after them the bits after it. -/
theorem carries_cons {s : State} {es : List (Word × BitVec 1)} {b : Bool} {bits : List Bool}
    (h : Carries s es (b :: bits)) : ∃ e₁ e₂ rest, es = e₁ :: e₂ :: rest ∧ Carries s [e₁, e₂] [b]
      ∧ Carries (afterEdges s [e₁, e₂]) rest bits := by
  unfold Carries at h
  rw [halvesOfBits_cons] at h
  match es with
  | [] => simp [intervals] at h
  | [_] => simp [intervals] at h
  | e₁ :: e₂ :: rest =>
    simp only [intervals, List.map_cons, List.cons.injEq] at h
    obtain ⟨h₁, h₂, hrest⟩ := h
    exact ⟨e₁, e₂, rest, rfl, carries_pair_iff.2 ⟨h₁, h₂⟩, by simpa [Carries] using hrest⟩

theorem carries_append {s : State} {es : List (Word × BitVec 1)} {bits bits' : List Bool}
    (h : Carries s es (bits ++ bits')) :
    ∃ front back, es = front ++ back ∧ Carries s front bits ∧ Carries (afterEdges s front) back bits' := by
  induction bits generalizing s es with
  | nil => exact ⟨[], es, rfl, carries_nil_iff.2 rfl, h⟩
  | cons b bits ih =>
    obtain ⟨e₁, e₂, rest, rfl, hbit, hrest⟩ := carries_cons h
    obtain ⟨front, back, rfl, hfront, hback⟩ := ih hrest
    refine ⟨e₁ :: e₂ :: front, back, rfl, ?_, hback⟩
    obtain ⟨h₁, h₂⟩ := carries_pair_iff.1 hbit
    have hclasses : (intervals e₂.1 front).map (classify s.params) = halvesOfBits bits := by
      simpa [Carries] using hfront
    simp [Carries, intervals, halvesOfBits_cons, h₁, h₂, hclasses]

/-- The last edge closes the last bit. -/
theorem carries_concat {s : State} {es : List (Word × BitVec 1)} {e : Word × BitVec 1} {bits : List Bool} {b : Bool}
    (h : Carries s (es ++ [e]) (bits ++ [b])) :
    ∃ front e₁, es = front ++ [e₁] ∧ Carries s front bits ∧ Carries (afterEdges s front) [e₁, e] [b] := by
  obtain ⟨front, back, hes, hfront, hback⟩ := carries_append h
  obtain ⟨e₁, e₂, rest, rfl, hbit, hrest⟩ := carries_cons hback
  obtain rfl := carries_nil_iff.1 hrest
  have hconcat : es ++ [e] = (front ++ [e₁]) ++ [e₂] := by simp [hes]
  obtain ⟨rfl, hlast⟩ := List.append_inj' hconcat rfl
  obtain rfl : e = e₂ := List.singleton_inj.1 hlast
  exact ⟨front, e₁, rfl, hfront, hbit⟩

/-! ## EDGEs between bits act as the bits they carry -/

/-- The decoder without the registers that pair half-bits, which no bit reads or writes. -/
def settled (d : Decoder) : Decoder := { d with lastT := 0, level := false, halfPending := false, halfClass := .zero }

section
variable {P : Params} {now : Word} {lvl : Bool} {d : Decoder} {c : HalfClass}
  (hp : d.primed = true) (hc : classify P (sub32 now d.lastT) = .valid c)
include hp hc

/-- The first half of a bit (44_bitstream_decoder.md R130). -/
theorem edgeTransition_firstHalf (hh : d.halfPending = false) :
    edgeTransition P now lvl d = quiet (holdHalf c (recordEdge now lvl d)) := by
  simp [edgeTransition, hp, hc, takeInterval, takeHalf, hh]

/-- The second half of a bit (44_bitstream_decoder.md R130). -/
theorem edgeTransition_secondHalf (hh : d.halfPending = true) (he : d.halfClass = c) :
    edgeTransition P now lvl d = onBit P (c == .one) now { recordEdge now lvl d with halfPending := false } := by
  simp [edgeTransition, hp, hc, takeInterval, takeHalf, hh, he, completeBit]

end

theorem classOfBit_beq_one (b : Bool) : (classOfBit b == .one) = b := by
  cases b <;> rfl

theorem endPreamble_settled (P : Params) (d : Decoder) : endPreamble P (settled d) = settled (endPreamble P d) := by
  have hcnt : (settled d).preCnt = d.preCnt := rfl
  simp only [endPreamble, hcnt]
  split <;> rfl

theorem preambleBit_settled (P : Params) (b : Bool) (d : Decoder) :
    (preambleBit P b (settled d)).1 = settled (preambleBit P b d).1 := by
  cases b with
  | true => rfl
  | false => exact endPreamble_settled P d

theorem dataBit_settled (P : Params) (b : Bool) (d : Decoder) :
    (dataBit P b (settled d)).1 = settled (dataBit P b d).1 := by
  have hcnt : (settled d).bitCnt = d.bitCnt := rfl
  have hlen : (settled d).len = d.len := rfl
  simp only [dataBit, hcnt, hlen]
  split
  · rfl
  · split <;> rfl

theorem endBit_settled (P : Params) (b : Bool) (now : Word) (d : Decoder) :
    (endBit P b now (settled d)).1 = settled (endBit P b now d).1 := by
  cases b with
  | false => rfl
  | true =>
    have hvalid : checksumValid (settled d) = checksumValid d := rfl
    simp only [endBit, if_true, endPacket, hvalid]
    split <;> rfl

theorem onBit_settled (P : Params) (b : Bool) (now : Word) (d : Decoder) :
    (onBit P b now (settled d)).1 = settled (onBit P b now d).1 := by
  have hstate : (settled d).state = d.state := rfl
  unfold onBit
  rw [hstate]
  cases d.state with
  | waitPreamble | waitStartBit => exact preambleBit_settled P b d
  | waitData => exact dataBit_settled P b d
  | waitEndBit => exact endBit_settled P b now d

/-- The decoder as a bit reaches it: an edge seen, no half-bit waiting, and otherwise as `s` left it but for the registers
that pair half-bits. -/
def ReachedByBit (s : State) (d : Decoder) : Prop := d.primed = true ∧ d.halfPending = false ∧ settled d = settled s.dec

/-- Two edges that carry a bit complete it (44_bitstream_decoder.md R130). -/
theorem afterEdges_pair_dec {s : State} {e₁ e₂ : Word × BitVec 1} {b : Bool} (hs : BetweenBits s)
    (h : Carries s [e₁, e₂] [b]) :
    ∃ d, ReachedByBit s d ∧ (afterEdges s [e₁, e₂]).dec = (onBit s.params b e₂.1 d).1 := by
  obtain ⟨hp, hh⟩ := hs
  obtain ⟨h₁, h₂⟩ := carries_pair_iff.1 h
  have first : (after (.edge e₁.1 e₁.2) s).dec = holdHalf (classOfBit b) (recordEdge e₁.1 (bit e₁.2) s.dec) :=
    congrArg Prod.fst (edgeTransition_firstHalf hp h₁ hh)
  refine ⟨{ recordEdge e₂.1 (bit e₂.2) (after (.edge e₁.1 e₁.2) s).dec with halfPending := false }, ?_, ?_⟩
  · rw [first]
    exact ⟨hp, rfl, rfl⟩
  · have second := edgeTransition_secondHalf (P := s.params) (now := e₂.1) (lvl := bit e₂.2) (c := classOfBit b)
      (d := (after (.edge e₁.1 e₁.2) s).dec) (by rw [first]; exact hp) (by rwa [after_edge_lastT]) (by rw [first]; rfl)
      (by rw [first]; rfl)
    rw [classOfBit_beq_one] at second
    exact congrArg Prod.fst second

/-- Two edges that carry a bit act as the bit, and leave the block between bits. -/
theorem afterEdges_pair {s : State} {e₁ e₂ : Word × BitVec 1} {b : Bool} (hs : BetweenBits s)
    (h : Carries s [e₁, e₂] [b]) : BetweenBits (afterEdges s [e₁, e₂])
      ∧ settled (afterEdges s [e₁, e₂]).dec = (onBit s.params b e₂.1 (settled s.dec)).1 := by
  obtain ⟨d, ⟨hp, hh, hsettled⟩, hdec⟩ := afterEdges_pair_dec hs h
  have frame := bitEffect_frame (onBit_effect s.params b e₂.1 d)
  rw [BetweenBits, hdec, ← hsettled, onBit_settled]
  exact ⟨⟨frame.primed.trans hp, frame.halfPending hh⟩, rfl⟩

/-- The bits lead from one decoder to another, whatever the times at which they complete. -/
def ReadsBits (P : Params) : List Bool → Decoder → Decoder → Prop
  | [], d, e => d = e
  | b :: bits, d, e => ∃ now, ReadsBits P bits (onBit P b now d).1 e

theorem readsBits_append {P : Params} {bits bits' : List Bool} {d e : Decoder} :
    ReadsBits P (bits ++ bits') d e ↔ ∃ m, ReadsBits P bits d m ∧ ReadsBits P bits' m e := by
  induction bits generalizing d with
  | nil => simp [ReadsBits]
  | cons b bits ih =>
    simp only [List.cons_append, ReadsBits, ih]
    exact ⟨fun ⟨now, m, h, h'⟩ => ⟨m, ⟨now, h⟩, h'⟩, fun ⟨m, ⟨now, h⟩, h'⟩ => ⟨now, m, h, h'⟩⟩

theorem carries_reads {s : State} {es : List (Word × BitVec 1)} {bits : List Bool} (hs : BetweenBits s)
    (h : Carries s es bits) : BetweenBits (afterEdges s es)
      ∧ ReadsBits s.params bits (settled s.dec) (settled (afterEdges s es).dec) := by
  induction bits generalizing s es with
  | nil =>
    obtain rfl := carries_nil_iff.1 h
    exact ⟨hs, rfl⟩
  | cons b bits ih =>
    obtain ⟨e₁, e₂, rest, rfl, hbit, hrest⟩ := carries_cons h
    obtain ⟨hbetween, hsettled⟩ := afterEdges_pair hs hbit
    obtain ⟨hafter, hreads⟩ := ih hbetween hrest
    rw [hsettled, afterEdges_params] at hreads
    exact ⟨hafter, e₂.1, hreads⟩

/-! ## A completed bit in each state of the decoder -/

section
variable {P : Params} {now : Word} {d : Decoder}

theorem onBit_preambleOne (hs : d.state = .waitPreamble) : onBit P true now d = quiet (countPreamble P d) := by
  simp [onBit, hs, preambleBit]

theorem onBit_start (hs : d.state = .waitPreamble) (hmin : P.preambleMin ≤ d.preCnt.toNat) :
    onBit P false now d = quiet (startPacket d) := by
  simp [onBit, hs, preambleBit, endPreamble, hmin]

/-- A data bit shifted into the byte that is being assembled (44_bitstream_decoder.md R137). -/
def shiftBit (d : Decoder) (b : Bool) : Decoder := { d with curByte := shiftIn b d, bitCnt := d.bitCnt + 1 }

@[simp] theorem shiftBit_curByte (d : Decoder) (b : Bool) : (shiftBit d b).curByte = shiftIn b d := rfl

@[simp] theorem shiftBit_bitCnt (d : Decoder) (b : Bool) : (shiftBit d b).bitCnt = d.bitCnt + 1 := rfl

/-- What neither reads the byte nor the bit count is as it was after bits are shifted in. -/
theorem foldl_shiftBit_keeps {α : Type} (f : Decoder → α) (hf : ∀ d b, f (shiftBit d b) = f d) (bits : List Bool)
    (d : Decoder) : f (bits.foldl shiftBit d) = f d := by
  induction bits generalizing d with
  | nil => rfl
  | cons b bits ih => rw [List.foldl_cons, ih, hf]

theorem onBit_shift (b : Bool) (hs : d.state = .waitData) (hc : d.bitCnt.toNat < 7) :
    onBit P b now d = quiet (shiftBit d b) := by
  simp [onBit, hs, dataBit, hc, shiftBit]

theorem onBit_store (b : Bool) (hs : d.state = .waitData) (hc : d.bitCnt.toNat = 7) (hl : d.len.toNat < P.maxLen) :
    onBit P b now d = quiet (storeByte (shiftIn b d) d) := by
  simp [onBit, hs, dataBit, hc, hl]

theorem onBit_continue (hs : d.state = .waitEndBit) : onBit P false now d = quiet (continuePacket d) := by
  simp [onBit, hs, endBit]

theorem onBit_end (hs : d.state = .waitEndBit) : onBit P true now d = endPacket P now d := by
  simp [onBit, hs, endBit]

end

/-! ## The eight bits of a byte -/

/-- Up to seven data bits are shifted in. -/
theorem readsBits_shift {P : Params} {bits : List Bool} {d e : Decoder} (h : ReadsBits P bits d e)
    (hs : d.state = .waitData) (hc : d.bitCnt.toNat + bits.length ≤ 7) : e = bits.foldl shiftBit d := by
  induction bits generalizing d with
  | nil => exact h.symm
  | cons b bits ih =>
    obtain ⟨now, h⟩ := h
    rw [List.length_cons] at hc
    rw [onBit_shift b hs (by omega)] at h
    have hcnt : (shiftBit d b).bitCnt.toNat = d.bitCnt.toNat + 1 := BitVec.toNat_add_of_lt (by simp; omega)
    exact ih h hs (by omega)

theorem getLsbD_shiftIn (b : Bool) (d : Decoder) (i : Nat) :
    (shiftIn b d).getLsbD i = (decide (i < 8) && if i = 0 then b else d.curByte.getLsbD (i - 1)) := by
  cases i <;> simp [shiftIn]

/-- The bits of a byte before the last one. -/
def leadingBits (v : Byte) : List Bool :=
  [v.getLsbD 7, v.getLsbD 6, v.getLsbD 5, v.getLsbD 4, v.getLsbD 3, v.getLsbD 2, v.getLsbD 1]

theorem bitsOfByte_eq (v : Byte) : bitsOfByte v = leadingBits v ++ [v.getLsbD 0] := rfl

/-- Eight bits push out whatever the byte held before them. -/
theorem shiftIn_bitsOfByte (v : Byte) (d : Decoder) :
    shiftIn (v.getLsbD 0) ((leadingBits v).foldl shiftBit d) = v := by
  apply BitVec.eq_of_getLsbD_eq
  intro i hi
  interval_cases i <;> simp [leadingBits, getLsbD_shiftIn, -BitVec.getLsbD_eq_getElem]

theorem foldl_shiftBit_leadingBits_bitCnt (v : Byte) (d : Decoder) (hc : d.bitCnt = 0) :
    ((leadingBits v).foldl shiftBit d).bitCnt = 7 := by
  simp [leadingBits, hc]

/-- The eight bits of a byte, most-significant first, store it (20_memory.md R51). -/
theorem readsBits_byte {P : Params} {v : Byte} {d e : Decoder} (h : ReadsBits P (bitsOfByte v) d e)
    (hs : d.state = .waitData) (hc : d.bitCnt = 0) (hl : d.len.toNat < P.maxLen) : e = storeByte v d := by
  rw [bitsOfByte_eq, readsBits_append] at h
  obtain ⟨m, hlead, now, hlast⟩ := h
  obtain rfl := readsBits_shift hlead hs (by simp [hc, leadingBits])
  have hms := foldl_shiftBit_keeps Decoder.state (fun _ _ => rfl) (leadingBits v) d
  have hml := foldl_shiftBit_keeps Decoder.len (fun _ _ => rfl) (leadingBits v) d
  have hstore := foldl_shiftBit_keeps (storeByte v) (fun _ _ => rfl) (leadingBits v) d
  rw [onBit_store _ (hms.trans hs) (by simp [foldl_shiftBit_leadingBits_bitCnt v d hc]) (by rwa [hml]),
    shiftIn_bitsOfByte, hstore] at hlast
  exact hlast.symm

/-- A stored byte takes one place of the buffer, which has no more than 8. -/
theorem storeByte_len_toNat {P : Params} {d : Decoder} (v : Byte) (hwf : P.wf = true) (hl : d.len.toNat < P.maxLen) :
    (storeByte v d).len.toNat = d.len.toNat + 1 := by
  have hmax := Params.maxLen_le_of_wf hwf
  exact BitVec.toNat_add_of_lt (by simp; omega)

/-- Settles O55: the block acts as the bits the EDGEs carry, and eight of them store their byte. -/
theorem eightBitsStoreTheirByte : Obligations.EightBitsStoreTheirByte := by
  intro s es v hinv hbetween hs hc hl hcarries
  obtain ⟨-, hreads⟩ := carries_reads hbetween hcarries
  have hstored : settled (afterEdges s es).dec = storeByte v (settled s.dec) := readsBits_byte hreads hs hc hl
  have hlen := storeByte_len_toNat (d := settled s.dec) v hinv.params hl
  have hread (i : Nat) := bufRead_storeByte (d := settled s.dec) v i hinv.buffer.canonical
  rw [← hstored] at hlen hread
  exact ⟨(congrArg Decoder.state hstored :), hlen, (congrArg Decoder.xorSum hstored :), hread,
    (congrArg Decoder.ready hstored :)⟩

/-! ## A preamble and the bytes of a packet -/

/-- One-bits of a preamble count up to the cap. -/
theorem readsBits_preamble {P : Params} {p : Nat} {d e : Decoder} (h : ReadsBits P (List.replicate p true) d e)
    (hcap : P.preambleCap ≤ 255) (hs : d.state = .waitPreamble) (hd : d.preCnt.toNat ≤ P.preambleCap) :
    ∃ n : BitVec 8, n.toNat = min (d.preCnt.toNat + p) P.preambleCap ∧ e = { d with preCnt := n } := by
  induction p generalizing d with
  | zero => exact ⟨d.preCnt, by omega, h.symm⟩
  | succ p ih =>
    obtain ⟨now, h⟩ := h
    rw [onBit_preambleOne hs] at h
    have hcount : (countPreamble P d).preCnt.toNat = min (d.preCnt.toNat + 1) P.preambleCap :=
      Nat.mod_eq_of_lt (by omega)
    obtain ⟨n, hn, he⟩ := ih h hs (by simp only [quiet_decoder, hcount]; omega)
    refine ⟨n, ?_, he⟩
    rw [hn, quiet_decoder, hcount]
    omega

/-- The decoder holds the bytes of a packet that began at `ref`. -/
structure Assembled (ref : Decoder) (bytes : List Byte) (d : Decoder) : Prop where
  canonical : Memory.wf d.buf = true
  len : d.len.toNat = bytes.length
  stored : ∀ i v, bytes[i]? = some v → bufRead d i = v
  xorSum : d.xorSum = bytes.foldl (fun x v => x ^^^ v) 0
  curPre : d.curPre = ref.curPre
  ready : d.ready = ref.ready
  pktTime : d.pktTime = ref.pktTime
  pktPre : d.pktPre = ref.pktPre

theorem startPacket_assembled {d : Decoder} (h : Memory.wf d.buf = true) :
    Assembled (startPacket d) [] (startPacket d) :=
  ⟨h, rfl, by simp, rfl, rfl, rfl, rfl, rfl⟩

section
variable {P : Params} {ref d : Decoder} {bytes : List Byte}

theorem continuePacket_assembled (h : Assembled ref bytes d) : Assembled ref bytes (continuePacket d) := { h with }

theorem storeByte_assembled (v : Byte) (hwf : P.wf = true) (hl : d.len.toNat < P.maxLen) (h : Assembled ref bytes d) :
    Assembled ref (bytes ++ [v]) (storeByte v d) := { h with
  canonical := Memory.wf_write _ _ _ h.canonical
  len := by rw [storeByte_len_toNat v hwf hl, h.len, List.length_append, List.length_singleton]
  stored := fun i w hw => by
    rw [bufRead_storeByte v i h.canonical, h.len]
    by_cases hi : i = bytes.length
    · simpa [hi] using hw
    · have hlt : i < bytes.length := by have := (List.getElem?_eq_some_iff.1 hw).1; simp at this; omega
      rw [if_neg hi]
      exact h.stored i w (by rwa [List.getElem?_append_left hlt] at hw)
  xorSum := by rw [storeByte_xorSum, h.xorSum, List.foldl_concat] }

end

/-- The bits of bytes that each follow a zero-bit. -/
def framedBits (bytes : List Byte) : List Bool := bytes.flatMap fun v => false :: bitsOfByte v

theorem framedBits_cons (v : Byte) (bytes : List Byte) :
    framedBits (v :: bytes) = false :: (bitsOfByte v ++ framedBits bytes) := rfl

theorem bitsOfPacket_eq (p : Nat) (bytes : List Byte) :
    bitsOfPacket p bytes = List.replicate p true ++ framedBits bytes ++ [true] := rfl

/-- The bytes after the first join the packet, each behind a zero-bit (44_bitstream_decoder.md R138). -/
theorem readsBits_moreBytes {P : Params} {ref d e : Decoder} {done bytes : List Byte} (hwf : P.wf = true)
    (h : ReadsBits P (framedBits bytes) d e) (hs : d.state = .waitEndBit) (hd : Assembled ref done d)
    (hl : done.length + bytes.length ≤ P.maxLen) : e.state = .waitEndBit ∧ Assembled ref (done ++ bytes) e := by
  induction bytes generalizing d done with
  | nil =>
    obtain rfl : d = e := h
    exact ⟨hs, by rwa [List.append_nil]⟩
  | cons v bytes ih =>
    rw [List.length_cons] at hl
    rw [framedBits_cons] at h
    obtain ⟨now, h⟩ := h
    rw [onBit_continue hs, quiet_decoder, readsBits_append] at h
    obtain ⟨m, hbyte, hrest⟩ := h
    have room : (continuePacket d).len.toNat < P.maxLen := by rw [continuePacket_len, hd.len]; omega
    obtain rfl := readsBits_byte hbyte rfl rfl room
    have joined := storeByte_assembled v hwf room (continuePacket_assembled hd)
    simpa using ih hrest rfl joined (by simp; omega)

/-- After enough one-bits the first zero-bit is the start bit (44_bitstream_decoder.md R136). -/
theorem readsBits_bytes {P : Params} {d e : Decoder} {bytes : List Byte} (hwf : P.wf = true)
    (h : ReadsBits P (framedBits bytes) d e) (hs : d.state = .waitPreamble) (hmin : P.preambleMin ≤ d.preCnt.toNat)
    (hbuf : Memory.wf d.buf = true) (hpos : 1 ≤ bytes.length) (hl : bytes.length ≤ P.maxLen) :
    e.state = .waitEndBit ∧ Assembled (startPacket d) bytes e := by
  cases bytes with
  | nil => simp at hpos
  | cons v bytes =>
    rw [List.length_cons] at hl
    rw [framedBits_cons] at h
    obtain ⟨now, h⟩ := h
    rw [onBit_start hs hmin, quiet_decoder, readsBits_append] at h
    obtain ⟨m, hbyte, hrest⟩ := h
    have room : (startPacket d).len.toNat < P.maxLen := by simp; omega
    obtain rfl := readsBits_byte hbyte rfl rfl room
    have first := storeByte_assembled v hwf room (startPacket_assembled hbuf)
    exact readsBits_moreBytes hwf hrest rfl first (by simp; omega)

/-! ## The delivery of a packet -/

/-- What a packet leaves in the decoder `d` when its end bit completes at `now`, if `old` was the decoder before it:
the bytes, and with a valid checksum `ready` and the packet registers. -/
def PacketLeft (old : Decoder) (now : Word) (preamble : Nat) (bytes : List Byte) (d : Decoder) : Prop :=
  d.state = .waitPreamble
    ∧ d.len.toNat = bytes.length
    ∧ (∀ i v, bytes[i]? = some v → bufRead d i = v)
    ∧ (bytes.foldl (fun x v => x ^^^ v) 0 = 0 → d.ready = true ∧ d.pktTime = now ∧ d.pktPre.toNat = preamble)
    ∧ (bytes.foldl (fun x v => x ^^^ v) 0 ≠ 0 → d.ready = old.ready ∧ d.pktTime = old.pktTime ∧ d.pktPre = old.pktPre)

/-- The end bit publishes the packet or drops it (44_bitstream_decoder.md R139). -/
theorem endPacket_packetLeft {P : Params} {ref d : Decoder} {bytes : List Byte} (now : Word)
    (h : Assembled ref bytes d) : PacketLeft ref now ref.curPre.toNat bytes (endPacket P now d).1 := by
  unfold endPacket
  split
  next hv =>
    have hx : bytes.foldl (fun x v => x ^^^ v) 0 = 0 := by simpa [checksumValid, h.xorSum] using hv
    exact ⟨rfl, h.len, h.stored, fun _ => ⟨rfl, rfl, congrArg BitVec.toNat h.curPre⟩, fun hn => absurd hx hn⟩
  next hv =>
    have hx : bytes.foldl (fun x v => x ^^^ v) 0 ≠ 0 := by simpa [checksumValid, h.xorSum] using hv
    exact ⟨rfl, h.len, h.stored, fun hn => absurd hn hx, fun _ => ⟨h.ready, h.pktTime, h.pktPre⟩⟩

/-- Settles O56: the bits before the end bit assemble the packet, and the last EDGE completes the end bit. -/
theorem aWellFramedPacketIsDelivered : Obligations.AWellFramedPacketIsDelivered := by
  intro s es p bytes e hinv hbetween hs hmin hpos hl hcarries
  obtain ⟨-, -, -, -, hcapMin, hcap, -⟩ := s.params.wf_iff.1 hinv.params
  rw [bitsOfPacket_eq] at hcarries
  obtain ⟨front, e₁, rfl, hfront, hend⟩ := carries_concat hcarries
  obtain ⟨hbetweenEnd, hreads⟩ := carries_reads hbetween hfront
  obtain ⟨m, hpreamble, hbytes⟩ := readsBits_append.1 hreads
  obtain ⟨n, hn, rfl⟩ := readsBits_preamble hpreamble hcap hs hinv.control.preCntFits
  have hn : n.toNat = min (s.dec.preCnt.toNat + p) s.params.preambleCap := hn
  obtain ⟨hstate, assembled⟩ :=
    readsBits_bytes hinv.params hbytes hs (by simp only [hn]; omega) hinv.buffer.canonical hpos hl
  have left : PacketLeft s.dec e.1 n.toNat bytes (endPacket s.params e.1 (settled (afterEdges s front).dec)).1 :=
    endPacket_packetLeft e.1 assembled
  obtain ⟨-, hlast⟩ := afterEdges_pair hbetweenEnd hend
  rw [← onBit_end hstate, ← afterEdges_params s front, ← hlast, ← afterEdges_append, hn] at left
  rw [List.append_assoc]
  exact left

end Sys2Proof.Machine

/-! Proofs about 30_encoding.md: how a command word decodes, which operand bits a command consults, what a step does with
the word presented, and the EDGE words of a PACKET line. -/

namespace Sys2Proof

open Machine (Unassigned consultedBits)

/-! ## Decode and encode -/

@[simp] theorem decode_mkCmdWord (op : Byte) (a b c : Word) : decode (mkCmdWord op a b c) = decodeFields op a b c := by
  simp [decode]

/-- Each command's word selects its row, and the row takes every operand from where `encode` placed it. -/
theorem decode_encode (i : Instr) : decode (encode i) = .ok i := by
  cases i <;> simp [encode, decodeFields, slice_place]

/-- Settles O1: by the command, operand by operand. -/
theorem decodeOfEncodeIsTheCommand : Obligations.DecodeOfEncodeIsTheCommand := fun i _ => decode_encode i

/-- Settles O2: by computing the fields of each word. -/
theorem writtenOutWordsDecode : Obligations.WrittenOutWordsDecode := ⟨rfl, rfl, rfl, rfl, rfl, rfl, rfl⟩

/-! ## The opcode map -/

/-- The opcodes of the map (30_encoding.md R71). -/
def assignedOpcodes : List Byte := opcodeRows.map fun r => r.op

theorem unassigned_iff (op : Byte) : Unassigned op ↔ op ∉ assignedOpcodes := by
  revert op
  unfold Unassigned
  decide

theorem decodeFields_of_unassigned {op : Byte} (h : Unassigned op) (a b c : Word) :
    decodeFields op a b c = .error (.unassignedOpcode op) := by
  simp_all [unassigned_iff, assignedOpcodes, opcodeRows, decodeFields]

theorem decode_of_unassigned {cw : CmdWord} (h : Unassigned (opField cw)) :
    decode cw = .error (.unassignedOpcode (opField cw)) :=
  decodeFields_of_unassigned h _ _ _

/-- A row's opcode decodes to a command of that row, whatever the operand words hold. -/
theorem decodeFields_of_assigned {op : Byte} (h : op ∈ assignedOpcodes) (a b c : Word) :
    ∃ i, decodeFields op a b c = .ok i ∧ opField (encode i) = op := by
  fin_cases h <;> exact ⟨_, rfl, opField_mkCmdWord ..⟩

/-- No operand value is reserved (30_encoding.md R74). -/
theorem Instr.wf_eq_true (i : Instr) : i.wf = true := by
  cases i <;> rfl

/-- Settles O3: an opcode is in the map or unassigned, and decoding follows it. -/
theorem everyOpcodeIsOneRowOrUnassigned : Obligations.EveryOpcodeIsOneRowOrUnassigned := by
  refine ⟨by decide, fun cw => ?_⟩
  by_cases h : Unassigned (opField cw)
  · exact .inl ⟨h, decode_of_unassigned h⟩
  · have hmem : opField cw ∈ assignedOpcodes := by simpa [unassigned_iff] using h
    obtain ⟨i, hdecode, hop⟩ := decodeFields_of_assigned hmem (aField cw) (bField cw) (cField cw)
    exact .inr ⟨h, hmem, i, hdecode, hop, i.wf_eq_true⟩

/-! ## Masked command words -/

@[simp] theorem opField_and (cw m : CmdWord) : opField (cw &&& m) = opField cw &&& opField m := BitVec.extractLsb'_and
@[simp] theorem aField_and (cw m : CmdWord) : aField (cw &&& m) = aField cw &&& aField m := BitVec.extractLsb'_and
@[simp] theorem bField_and (cw m : CmdWord) : bField (cw &&& m) = bField cw &&& bField m := BitVec.extractLsb'_and
@[simp] theorem cField_and (cw m : CmdWord) : cField (cw &&& m) = cField cw &&& cField m := BitVec.extractLsb'_and

theorem and_fullWord (v : Word) : v &&& 0xFFFFFFFF#32 = v := BitVec.and_allOnes

/-- A mask that covers an operand field leaves it as it was. -/
theorem slice_and {n : Nat} {m : Word} (hm : slice n m = BitVec.allOnes n) (v : Word) :
    slice n (v &&& m) = slice n v := by
  rw [slice, BitVec.extractLsb'_and, ← slice, ← slice, hm, BitVec.and_allOnes]

/-- A field of an operand field. -/
theorem extractLsb'_slice {k n : Nat} (hk : k ≤ n) (v : Word) : (slice n v).extractLsb' 0 k = slice k v := by
  ext i hi
  simp [slice]
  omega

/-- Every command consults its whole opcode. -/
theorem opField_consultedBits (op : Byte) : opField (consultedBits op) = 0xFF := by
  unfold consultedBits
  split <;> exact opField_mkCmdWord ..

@[simp] theorem opField_and_consultedBits (cw : CmdWord) (op : Byte) :
    opField (cw &&& consultedBits op) = opField cw := by
  rw [opField_and, opField_consultedBits]
  exact BitVec.and_allOnes

/-- All but ENC6, SHORTADDR and LONGADDR consult the whole of every operand field. -/
theorem decode_and_consultedBits {cw : CmdWord} (hrow : opField cw ∈ assignedOpcodes) (henc6 : opField cw ≠ 0x10)
    (hshort : opField cw ≠ 0x18) (hlong : opField cw ≠ 0x19) :
    decode (cw &&& consultedBits (opField cw)) = decode cw := by
  rw [decode, opField_and_consultedBits, decode]
  generalize opField cw = op at *
  fin_cases hrow <;> simp (disch := decide) [consultedBits, decodeFields, slice_and, and_fullWord] at *

end Sys2Proof

namespace Sys2Proof.Machine

/-! ## The effect of a command word -/

theorem runCommand_of_decode {cw : CmdWord} {i : Instr} (h : decode cw = .ok i) (s : State) :
    runCommand cw s = exec i s := by
  rw [runCommand, h]

theorem runCommand_of_error {cw : CmdWord} {e : DecodeError} (h : decode cw = .error e) (s : State) :
    runCommand cw s = .next (respondIllegal s) := by
  rw [runCommand, h]
  rfl

/-- Settles O5: the word decodes to no command. -/
theorem unassignedOpcodeAnswersIllegal : Obligations.UnassignedOpcodeAnswersIllegal :=
  fun _ s h => runCommand_of_error (decode_of_unassigned h) s

/-- What a row of the map decodes to is what its words run. -/
theorem encodedAs_of_decodeFields {op : Byte} {f : Word → Word → Word → Instr}
    (h : ∀ a b c, decodeFields op a b c = .ok (f a b c)) : EncodedAs op f := by
  rintro cw s rfl
  exact runCommand_of_decode (h _ _ _) s

/-! ## Unconsulted operand bits -/

/-- ENC6 reads `v[5:0]` (41_balanced_code.md R86). -/
theorem execEnc6_congr {v w : Byte} (h : v.extractLsb' 0 6 = w.extractLsb' 0 6) : execEnc6 v = execEnc6 w := by
  funext s
  rw [execEnc6, h, ← execEnc6]

/-- SHORTADDR reads bit 0 of its cycle (43_reply_encoder.md R110). -/
theorem execShortAddr_congr {addr c c' : Byte} (h : c.getLsbD 0 = c'.getLsbD 0) :
    execShortAddr addr c = execShortAddr addr c' := by
  funext s
  simp only [execShortAddr, shortAddrFrame, h]

/-- LONGADDR reads `high[5:0]` and bit 0 of its cycle (43_reply_encoder.md R112). -/
theorem execLongAddr_congr {high high' low c c' : Byte} (hhigh : high.extractLsb' 0 6 = high'.extractLsb' 0 6)
    (h : c.getLsbD 0 = c'.getLsbD 0) : execLongAddr high low c = execLongAddr high' low c' := by
  funext s
  simp only [execLongAddr, longAddrFrame, longAddrHighPayload, hhigh, h]

/-- A row whose command does the same with its operand words masked ignores the masked bits of its words. -/
theorem runCommand_and {op : Byte} {ma mb mc : Word} {f : Word → Word → Word → Instr}
    (hdecode : ∀ a b c, decodeFields op a b c = .ok (f a b c)) (hmask : consultedBits op = mkCmdWord 0xFF ma mb mc)
    (hexec : ∀ a b c, exec (f (a &&& ma) (b &&& mb) (c &&& mc)) = exec (f a b c))
    {cw : CmdWord} (hop : opField cw = op) (s : State) :
    runCommand (cw &&& consultedBits (opField cw)) s = runCommand cw s := by
  have encoded := encodedAs_of_decodeFields hdecode
  rw [encoded cw s hop, encoded _ s ((opField_and_consultedBits ..).trans hop), hop, hmask]
  simp [hexec]

theorem getLsbD_slice_and_one (v : Word) : (slice 8 (v &&& 1)).getLsbD 0 = (slice 8 v).getLsbD 0 := by
  simp [slice]

theorem extractLsb'_slice_and_low6 (v : Word) :
    (slice 8 (v &&& 0x3F)).extractLsb' 0 6 = (slice 8 v).extractLsb' 0 6 := by
  rw [extractLsb'_slice (by decide), extractLsb'_slice (by decide), slice_and (by decide)]

/-- Settles O4: an unassigned opcode is all that its word says; ENC6, SHORTADDR and LONGADDR read only part of an operand
field; a masked word of every other row decodes to the same command. -/
theorem unconsultedOperandBitsAreIgnored : Obligations.UnconsultedOperandBitsAreIgnored := by
  intro cw s
  by_cases hrow : opField cw ∈ assignedOpcodes
  · by_cases henc6 : opField cw = 0x10
    · exact runCommand_and (f := fun a _ _ => .enc6 (slice 8 a)) (fun _ _ _ => rfl) rfl
        (fun a _ _ => execEnc6_congr (extractLsb'_slice_and_low6 a)) henc6 s
    by_cases hshort : opField cw = 0x18
    · refine runCommand_and (f := fun a b _ => .shortAddr (slice 8 a) (slice 8 b)) (fun _ _ _ => rfl) rfl
        (fun a b _ => ?_) hshort s
      rw [slice_and (by decide)]
      exact execShortAddr_congr (getLsbD_slice_and_one b)
    by_cases hlong : opField cw = 0x19
    · refine runCommand_and (f := fun a b c => .longAddr (slice 8 a) (slice 8 b) (slice 8 c)) (fun _ _ _ => rfl) rfl
        (fun a b c => ?_) hlong s
      rw [slice_and (n := 8) (m := 0xFF) (by decide)]
      exact execLongAddr_congr (extractLsb'_slice_and_low6 a) (getLsbD_slice_and_one c)
    rw [runCommand, decode_and_consultedBits hrow henc6 hshort hlong, ← runCommand]
  · have hun : Unassigned (opField cw) := (unassigned_iff _).2 hrow
    rw [runCommand_of_error (decode_of_unassigned hun),
      runCommand_of_error (decode_of_unassigned (by rwa [opField_and_consultedBits]))]

/-! ## The step that presents a word -/

theorem step_accepted {s : State} {a : Agent} {rest : List PortEvent} {cw : CmdWord} {cws : List CmdWord}
    (hwf : s.params.wf = true) (hr : s.rst = false) (hsched : s.schedule = .present a :: rest)
    (hs : s.stream a = cw :: cws) : step s = runCommand cw (acceptCommand a cws rest s) := by
  simp [step_of_wf s hwf, fetch, hsched, hr, hs]

/-- Settles O6: the step accepts the word, and its decoding says what runs. -/
theorem stepRunsTheDecodedCommand : Obligations.StepRunsTheDecodedCommand := by
  intro s a rest cw cws hwf hr hsched hs
  rw [step_accepted hwf hr hsched hs]
  refine ⟨fun i hi => runCommand_of_decode hi _, fun e he => ?_⟩
  rw [runCommand_of_error he]
  cases a <;> rfl

/-! ## The EDGE words of a PACKET line -/

theorem length_asmHalves (c : AsmCursor) (ds : List Word) : (asmHalves c ds).2.length = ds.length := by
  induction ds generalizing c with
  | nil => rfl
  | cons d ds ih => simp [asmHalves, ih]

/-- Half-bits assemble to EDGE commands (30_encoding.md R78). -/
theorem edge_of_mem_asmHalves {c : AsmCursor} {ds : List Word} {i : Instr} (h : i ∈ (asmHalves c ds).2) :
    ∃ now lvl, i = .edge now lvl := by
  induction ds generalizing c with
  | nil => simp [asmHalves] at h
  | cons d ds ih =>
    rcases List.mem_cons.1 h with rfl | h
    · exact ⟨_, _, rfl⟩
    · exact ih h

@[simp] theorem length_asmBit (b : Bool) : (asmBit b).length = 2 := by
  cases b <;> rfl

/-- A bit takes two half-bits. -/
theorem length_flatMap_asmBit (bits : List Bool) : (bits.flatMap asmBit).length = 2 * bits.length := by
  simp [List.length_flatMap, Nat.mul_comm]

/-- A preamble of `p` bits, nine bits a byte and the end bit (30_encoding.md R79). -/
theorem length_bitsOfPacket (p : Nat) (bytes : List Byte) : (bitsOfPacket p bytes).length = p + 1 + 9 * bytes.length := by
  simp [bitsOfPacket, List.length_flatMap, bitsOfByte]
  omega

/-- Settles O60: by the number of half-bits of the packet's bits, each of which is an EDGE. -/
theorem packetLineExpandsToItsEdges : Obligations.PacketLineExpandsToItsEdges := by
  intro c p bytes t _
  refine ⟨_, _, ?_, rfl, ?_, ?_⟩
  · simp [assemble, asmItem]
  · rw [List.length_map, length_asmHalves, length_flatMap_asmBit, length_bitsOfPacket]
  · intro cw hcw
    obtain ⟨i, hi, rfl⟩ := List.mem_map.1 hcw
    obtain ⟨now, lvl, rfl⟩ := edge_of_mem_asmHalves hi
    exact ⟨now, lvl, decode_encode _⟩

end Sys2Proof.Machine

/-! Proofs about 41_balanced_code.md: ENC6 reads the table, DEC8 searches it in reverse, and the 256-entry inverse table
answers every byte as the search does. -/

namespace Sys2Proof.Machine

/-! ## The response of a lookup -/

/-- A lookup that finds a value answers with it, whatever else the state holds (30_encoding.md R76). -/
theorem respondLookup_some (v : Word) (s : State) : respondLookup (some v) s = answered s v := rfl

/-- A command whose lookup finds nothing answers `NOCODE` (30_encoding.md R68). -/
theorem answersNoCode_of_respondLookup_none {i : Instr} {s : State} (h : exec i s = .next (respondLookup none s)) :
    AnswersNoCode i s := ⟨_, h⟩

/-! ## ENC6 -/

theorem exec_enc6 (v : Byte) (s : State) :
    exec (.enc6 v) s = .next (answered s (zext32 (rom (v.extractLsb' 0 6)))) := rfl

/-- Settles O13: ENC6 reads the table, and its opcode's words decode to it. -/
theorem enc6AnswersTheTableEntry : Obligations.Enc6AnswersTheTableEntry :=
  ⟨exec_enc6, encodedAs_of_decodeFields fun _ _ _ => rfl⟩

/-! ## DEC8 -/

theorem exec_dec8_of_some {sym : Byte} {c : Code} (h : romInverse sym = some c) (s : State) :
    exec (.dec8 sym) s = .next (answered s (zext32 c)) := by
  rw [exec, execDec8, h, Option.map_some, respondLookup_some]

theorem dec8_answersNoCode_of_none {sym : Byte} (h : romInverse sym = none) (s : State) :
    AnswersNoCode (.dec8 sym) s :=
  answersNoCode_of_respondLookup_none (by rw [exec, execDec8, h, Option.map_none])

/-- The reverse search fails at every byte that is not an entry. -/
theorem romInverse_eq_none {sym : Byte} (h : ¬ IsEntry sym) : romInverse sym = none := by
  simpa [isEntry_iff] using h

/-- DEC8 of an entry answers its code. -/
theorem exec_dec8_rom (c : Code) (s : State) : exec (.dec8 (rom c)) s = .next (answered s (zext32 c)) :=
  exec_dec8_of_some (romInverse_rom c) s

/-- Settles O14: the reverse search finds the code of an entry and nothing for any other byte. -/
theorem dec8AnswersTheCodeOrNoCode : Obligations.Dec8AnswersTheCodeOrNoCode := by
  refine ⟨fun sym s => ⟨?_, fun h => dec8_answersNoCode_of_none (romInverse_eq_none h) s⟩,
    encodedAs_of_decodeFields fun _ _ _ => rfl⟩
  rintro c rfl
  exact exec_dec8_rom c s

/-! ## DEC8 after ENC6 -/

/-- A zero-extended value is the low field of its word. -/
theorem extractLsb'_zext32 {n : Nat} (h : n ≤ 32) (v : BitVec n) : (zext32 v).extractLsb' 0 n = v := slice_place h v

/-- ENC6 has period 64 (41_balanced_code.md R88): masking `v` with 0x3F leaves `v[5:0]`. -/
theorem extractLsb'_and_low6 (v : Byte) : (v &&& 0x3F).extractLsb' 0 6 = v.extractLsb' 0 6 := by
  have hmask : (0x3F : Byte).extractLsb' 0 6 = BitVec.allOnes 6 := by decide
  rw [BitVec.extractLsb'_and, hmask, BitVec.and_allOnes]

/-- Settles O15: ENC6 reads `v[5:0]` alone, its result holds the entry in bits 7 to 0, and the reverse search undoes the
table. -/
theorem dec8InvertsEnc6 : Obligations.Dec8InvertsEnc6 := by
  refine fun v s => ⟨congrFun (execEnc6_congr (extractLsb'_and_low6 v)) s, _, exec_enc6 v s, fun u => ?_⟩
  rw [extractLsb'_zext32 (by decide)]
  exact exec_dec8_rom _ u

/-! ## The inverse table -/

/-- The write that enters one code in an inverse table. -/
def enterCode (t : List (Option Code)) (c : Code) : List (Option Code) := t.set (rom c).toNat (some c)

/-- The codes 0 to 63, in the order in which they are entered. -/
def allCodes : List Code := (List.range 64).map (BitVec.ofNat 6)

theorem mem_allCodes (c : Code) : c ∈ allCodes :=
  List.mem_map.2 ⟨c.toNat, List.mem_range.2 c.isLt, c.ofNat_toNat 6⟩

/-- The inverse table is built by entering every code in an empty table. -/
theorem inverseTable_eq : inverseTable = allCodes.foldl enterCode (List.replicate 256 none) :=
  (List.foldl_map (f := BitVec.ofNat 6) (g := enterCode)).symm

theorem length_enterCode (t : List (Option Code)) (c : Code) : (enterCode t c).length = t.length := List.length_set

theorem length_foldl_enterCode (cs : List Code) (t : List (Option Code)) : (cs.foldl enterCode t).length = t.length := by
  induction cs generalizing t with
  | nil => rfl
  | cons c cs ih => rw [List.foldl_cons, ih, length_enterCode]

theorem length_inverseTable : inverseTable.length = 256 := by
  rw [inverseTable_eq, length_foldl_enterCode, List.length_replicate]

/-- A code is entered at its own byte and nowhere else. -/
theorem getD_enterCode {t : List (Option Code)} (ht : t.length = 256) (c : Code) (sym : Byte) :
    (enterCode t c).getD sym.toNat none = if rom c = sym then some c else t.getD sym.toNat none := by
  have hpos : sym.toNat < t.length := ht ▸ sym.isLt
  simp only [enterCode, List.getD_eq_getElem?_getD, List.getElem?_set, BitVec.toNat_inj]
  split
  next h => simp [h, hpos]
  next => rfl

/-- Entering codes leaves at an entry its own code once that is among them: no other code has this byte. -/
theorem getD_foldl_enterCode_rom {t : List (Option Code)} (ht : t.length = 256) (cs : List Code) (c : Code) :
    (cs.foldl enterCode t).getD (rom c).toNat none = if c ∈ cs then some c else t.getD (rom c).toNat none := by
  induction cs generalizing t with
  | nil => simp
  | cons e cs ih =>
    rw [List.foldl_cons, ih (by rw [length_enterCode, ht]), getD_enterCode ht]
    by_cases h : c = e
    · simp [h]
    · have hrom : rom e ≠ rom c := fun heq => h (rom_injective heq).symm
      simp [h, hrom]

/-- Entering codes leaves a byte that is not an entry as it was. -/
theorem getD_foldl_enterCode_of_not_isEntry {t : List (Option Code)} (ht : t.length = 256) (cs : List Code) {sym : Byte}
    (h : ¬ IsEntry sym) : (cs.foldl enterCode t).getD sym.toNat none = t.getD sym.toNat none := by
  induction cs generalizing t with
  | nil => rfl
  | cons e cs ih =>
    rw [List.foldl_cons, ih (by rw [length_enterCode, ht]), getD_enterCode ht, if_neg fun heq => h ⟨e, heq⟩]

/-- The inverse table holds at each byte what the reverse search finds (41_balanced_code.md R90). -/
theorem getD_inverseTable (sym : Byte) : inverseTable.getD sym.toNat none = romInverse sym := by
  rw [inverseTable_eq]
  by_cases h : IsEntry sym
  · obtain ⟨c, rfl⟩ := h
    rw [getD_foldl_enterCode_rom List.length_replicate, if_pos (mem_allCodes c), romInverse_rom]
  · rw [getD_foldl_enterCode_of_not_isEntry List.length_replicate _ h, romInverse_eq_none h,
      List.getD_replicate _ sym.isLt]

/-- Settles O16: the table holds what the reverse search finds, and DEC8 answers by the search. -/
theorem inverseTableGivesDec8Results : Obligations.InverseTableGivesDec8Results := by
  refine ⟨length_inverseTable, fun sym s => ?_⟩
  rw [getD_inverseTable]
  cases h : romInverse sym with
  | some c => exact exec_dec8_of_some h s
  | none => exact dec8_answersNoCode_of_none h s

end Sys2Proof.Machine

/-! Proofs about 42_group_packer.md: what ENC12, ENC18 and ENC24 pack, what DEC16, DEC24 and DEC32 find in a string of
symbols, and that unpacking undoes packing. -/

namespace Sys2Proof.Machine

/-! ## Zero-extended strings of fields -/

/-- A field appended at the low end moves the fields above it up by its width. -/
theorem zext32_append {n m : Nat} (w : BitVec n) (v : BitVec m) : zext32 (w ++ v) = (zext32 w <<< m) ||| zext32 v :=
  BitVec.setWidth_append_eq_shiftLeft_setWidth_or

theorem zext32_word (v : Word) : zext32 v = v := BitVec.setWidth_eq v

theorem zext32_injective {n : Nat} (h : n ≤ 32) {v w : BitVec n} (heq : zext32 v = zext32 w) : v = w := by
  rw [← extractLsb'_zext32 h v, heq, extractLsb'_zext32 h]

/-- Two adjacent fields of `p` at the end of a string are one field of `p`. -/
theorem zext32_append_fields {k n start start' len len' : Nat} (h : start' = start + len') (w : BitVec k)
    (p : BitVec n) :
    zext32 (w ++ p.extractLsb' start' len ++ p.extractLsb' start len')
      = zext32 (w ++ p.extractLsb' start (len + len')) := by
  rw [← BitVec.extractLsb'_append_extractLsb'_eq_extractLsb' h]
  simp only [zext32_append, BitVec.shiftLeft_or_distrib, BitVec.shiftLeft_add, BitVec.or_assoc]

/-! ## Packing -/

/-- The highest group is the group number over the two highest payload bits (42_group_packer.md R95). -/
theorem packGroup_zero {n k : Nat} (h : 6 * k - 6 + 2 ≤ 32) (id : BitVec 4) (p : BitVec n) :
    packGroup k id (zext32 p) 0 = id ++ p.extractLsb' (6 * k - 6) 2 := by
  rw [packGroup, if_pos rfl, zext32, BitVec.extractLsb'_setWidth_of_le h,
    ← BitVec.setWidth_append_eq_shiftLeft_setWidth_or, BitVec.setWidth_eq]

/-- Every other group is six payload bits (42_group_packer.md R95). -/
theorem packGroup_of_ne_zero {n k j : Nat} (hj : j ≠ 0) (h : 6 * (k - 1 - j) + 6 ≤ 32) (id : BitVec 4)
    (p : BitVec n) :
    packGroup k id (zext32 p) j = p.extractLsb' (6 * (k - 1 - j)) 6 := by
  rw [packGroup, if_neg hj, zext32, BitVec.extractLsb'_setWidth_of_le h]

theorem packGroups_two (id : BitVec 4) (p : BitVec 8) : packGroups 2 id (zext32 p) =
    zext32 (rom (id ++ p.extractLsb' 6 2) ++ rom (p.extractLsb' 0 6)) := by
  simp [packGroups, List.range_succ, packGroup_zero, packGroup_of_ne_zero, ← zext32_append]

theorem packGroups_three (id : BitVec 4) (p : BitVec 14) : packGroups 3 id (zext32 p) =
    zext32 (rom (id ++ p.extractLsb' 12 2) ++ rom (p.extractLsb' 6 6) ++ rom (p.extractLsb' 0 6)) := by
  simp [packGroups, List.range_succ, packGroup_zero, packGroup_of_ne_zero, ← zext32_append]

theorem packGroups_four (id : BitVec 4) (p : BitVec 20) : packGroups 4 id (zext32 p) =
    rom (id ++ p.extractLsb' 18 2) ++ rom (p.extractLsb' 12 6) ++ rom (p.extractLsb' 6 6)
      ++ rom (p.extractLsb' 0 6) := by
  rw [← zext32_word (_ ++ _)]
  simp [packGroups, List.range_succ, packGroup_zero, packGroup_of_ne_zero, ← zext32_append]

theorem exec_enc12 (id : BitVec 4) (p : BitVec 8) (s : State) : exec (.enc12 id p) s =
    .next (answered s (zext32 (rom (id ++ p.extractLsb' 6 2) ++ rom (p.extractLsb' 0 6)))) := by
  rw [exec, execEnc12, packGroups_two]
  rfl

theorem exec_enc18 (id : BitVec 4) (p : BitVec 14) (s : State) : exec (.enc18 id p) s =
    .next (answered s
      (zext32 (rom (id ++ p.extractLsb' 12 2) ++ rom (p.extractLsb' 6 6) ++ rom (p.extractLsb' 0 6)))) := by
  rw [exec, execEnc18, packGroups_three]
  rfl

theorem exec_enc24 (id : BitVec 4) (p : BitVec 20) (s : State) : exec (.enc24 id p) s =
    .next (answered s (rom (id ++ p.extractLsb' 18 2) ++ rom (p.extractLsb' 12 6) ++ rom (p.extractLsb' 6 6)
      ++ rom (p.extractLsb' 0 6))) := by
  rw [exec, execEnc24, packGroups_four]
  rfl

/-- Settles O17: the highest group is `id ++ p[7:6]`, and the other group the rest of the payload. -/
theorem enc12AnswersTwoSymbols : Obligations.Enc12AnswersTwoSymbols :=
  ⟨exec_enc12, encodedAs_of_decodeFields fun _ _ _ => rfl⟩

/-- Settles O18: the highest group is `id ++ p[13:12]`, and the others the rest of the payload, six bits each. -/
theorem enc18AnswersThreeSymbols : Obligations.Enc18AnswersThreeSymbols :=
  ⟨exec_enc18, encodedAs_of_decodeFields fun _ _ _ => rfl⟩

/-- Settles O19: the highest group is `id ++ p[19:18]`, and the others the rest of the payload, six bits each. -/
theorem enc24AnswersFourSymbols : Obligations.Enc24AnswersFourSymbols :=
  ⟨exec_enc24, encodedAs_of_decodeFields fun _ _ _ => rfl⟩

/-! ## Unpacking -/

/-- The lowest symbol of a string. -/
theorem symbolAt_append_zero {n : Nat} (w : BitVec n) (sym : Byte) : symbolAt (zext32 (w ++ sym)) 0 = sym := by
  rw [symbolAt, zext32, BitVec.extractLsb'_setWidth_of_le (by decide)]
  exact BitVec.extractLsb'_append_eq_right

/-- A symbol appended at the low end moves the others up one place. -/
theorem symbolAt_append_succ {n i : Nat} (hi : i < 3) (w : BitVec n) (sym : Byte) :
    symbolAt (zext32 (w ++ sym)) (i + 1) = symbolAt (zext32 w) i := by
  simp only [symbolAt, zext32]
  rw [BitVec.extractLsb'_setWidth_of_le (by omega), BitVec.extractLsb'_setWidth_of_le (by omega),
    BitVec.extractLsb'_append_eq_of_le (by omega), Nat.mul_succ, Nat.add_sub_cancel]

theorem unpackRaw_zero (S : Word) : unpackRaw 0 S = some 0 := rfl

/-- One symbol more at the high end puts its code above the others (42_group_packer.md R99). -/
theorem unpackRaw_succ (k : Nat) (S : Word) : unpackRaw (k + 1) S =
    (unpackRaw k S).bind fun V => (romInverse (symbolAt S k)).map fun c => V ||| (zext32 c <<< (6 * k)) := by
  rw [unpackRaw]
  cases unpackRaw k S <;> cases romInverse (symbolAt S k) <;> rfl

/-- A single symbol unpacks to its code. -/
theorem unpackRaw_one (sym : Byte) : unpackRaw 1 (zext32 sym) = (romInverse sym).map zext32 := by
  have hsym : symbolAt (zext32 sym) 0 = sym := extractLsb'_zext32 (by decide) sym
  rw [unpackRaw_succ, unpackRaw_zero, hsym]
  simp

/-- One symbol more at the low end puts its code below the others. -/
theorem unpackRaw_append {n k : Nat} (hk : k < 4) (w : BitVec n) (sym : Byte) :
    unpackRaw (k + 1) (zext32 (w ++ sym)) =
      (unpackRaw k (zext32 w)).bind fun V => (romInverse sym).map fun c => (V <<< 6) ||| zext32 c := by
  induction k with
  | zero =>
    rw [unpackRaw_succ, unpackRaw_zero, unpackRaw_zero, symbolAt_append_zero]
    simp
  | succ k ih =>
    rw [unpackRaw_succ, ih (by omega), symbolAt_append_succ (by omega), unpackRaw_succ]
    cases unpackRaw k (zext32 w) with
    | none => rfl
    | some V =>
      cases romInverse sym with
      | none => simp
      | some c =>
        cases romInverse (symbolAt (zext32 w) k) with
        | none => rfl
        | some c' =>
          simp only [Option.bind_some, Option.map_some, BitVec.shiftLeft_or_distrib, Nat.mul_succ, BitVec.shiftLeft_add]
          ac_rfl

/-! ### Strings of entries -/

theorem unpackRaw_one_rom (c : Code) : unpackRaw 1 (zext32 (rom c)) = some (zext32 c) := by
  rw [unpackRaw_one, romInverse_rom, Option.map_some]

/-- An entry at the low end puts its code below the others. -/
theorem unpackRaw_append_rom {n m k : Nat} (hk : k < 4) {w : BitVec n} {v : BitVec m}
    (h : unpackRaw k (zext32 w) = some (zext32 v)) (c : Code) :
    unpackRaw (k + 1) (zext32 (w ++ rom c)) = some (zext32 (v ++ c)) := by
  rw [unpackRaw_append hk, h, romInverse_rom, zext32_append]
  rfl

theorem unpackRaw_two_rom (c1 c0 : Code) : unpackRaw 2 (zext32 (rom c1 ++ rom c0)) = some (zext32 (c1 ++ c0)) :=
  unpackRaw_append_rom (by decide) (unpackRaw_one_rom c1) c0

theorem unpackRaw_three_rom (c2 c1 c0 : Code) :
    unpackRaw 3 (zext32 (rom c2 ++ rom c1 ++ rom c0)) = some (zext32 (c2 ++ c1 ++ c0)) :=
  unpackRaw_append_rom (by decide) (unpackRaw_two_rom c2 c1) c0

theorem unpackRaw_four_rom (c3 c2 c1 c0 : Code) :
    unpackRaw 4 (zext32 (rom c3 ++ rom c2 ++ rom c1 ++ rom c0)) = some (zext32 (c3 ++ c2 ++ c1 ++ c0)) :=
  unpackRaw_append_rom (by decide) (unpackRaw_three_rom c3 c2 c1) c0

/-! ### Strings with a byte that is no entry -/

theorem unpackRaw_one_isSome (sym : Byte) : (unpackRaw 1 (zext32 sym)).isSome = true ↔ IsEntry sym := by
  rw [unpackRaw_one, Option.isSome_map, isEntry_iff]

/-- A string unpacks if and only if its lowest symbol is an entry and the others unpack. -/
theorem unpackRaw_append_isSome {n k : Nat} (hk : k < 4) (w : BitVec n) (sym : Byte) :
    (unpackRaw (k + 1) (zext32 (w ++ sym))).isSome = true ↔
      (unpackRaw k (zext32 w)).isSome = true ∧ IsEntry sym := by
  rw [unpackRaw_append hk, isEntry_iff]
  cases unpackRaw k (zext32 w) <;> simp

theorem unpackRaw_two_eq_none {s1 s0 : Byte} (h : ¬ (IsEntry s1 ∧ IsEntry s0)) :
    unpackRaw 2 (zext32 (s1 ++ s0)) = none := by
  rwa [← unpackRaw_one_isSome, ← unpackRaw_append_isSome (by decide), Option.not_isSome_iff_eq_none] at h

theorem unpackRaw_three_eq_none {s2 s1 s0 : Byte} (h : ¬ (IsEntry s2 ∧ IsEntry s1 ∧ IsEntry s0)) :
    unpackRaw 3 (zext32 (s2 ++ s1 ++ s0)) = none := by
  rwa [← and_assoc, ← unpackRaw_one_isSome, ← unpackRaw_append_isSome (by decide),
    ← unpackRaw_append_isSome (by decide), Option.not_isSome_iff_eq_none] at h

theorem unpackRaw_four_eq_none {s3 s2 s1 s0 : Byte} (h : ¬ (IsEntry s3 ∧ IsEntry s2 ∧ IsEntry s1 ∧ IsEntry s0)) :
    unpackRaw 4 (zext32 (s3 ++ s2 ++ s1 ++ s0)) = none := by
  rwa [← and_assoc, ← and_assoc, ← unpackRaw_one_isSome, ← unpackRaw_append_isSome (by decide),
    ← unpackRaw_append_isSome (by decide), ← unpackRaw_append_isSome (by decide),
    Option.not_isSome_iff_eq_none] at h

/-! ### DEC16, DEC24 and DEC32 -/

theorem exec_dec16 (syms : BitVec 16) (s : State) :
    exec (.dec16 syms) s = .next (respondLookup (unpackRaw 2 (zext32 syms)) s) := rfl

theorem exec_dec24 (syms : BitVec 24) (s : State) :
    exec (.dec24 syms) s = .next (respondLookup (unpackRaw 3 (zext32 syms)) s) := rfl

theorem exec_dec32 (syms : BitVec 32) (s : State) :
    exec (.dec32 syms) s = .next (respondLookup (unpackRaw 4 (zext32 syms)) s) := by
  rw [zext32_word]
  rfl

theorem exec_dec16_rom (c1 c0 : Code) (s : State) :
    exec (.dec16 (rom c1 ++ rom c0)) s = .next (answered s (zext32 (c1 ++ c0))) := by
  rw [exec_dec16, unpackRaw_two_rom, respondLookup_some]

theorem exec_dec24_rom (c2 c1 c0 : Code) (s : State) :
    exec (.dec24 (rom c2 ++ rom c1 ++ rom c0)) s = .next (answered s (zext32 (c2 ++ c1 ++ c0))) := by
  rw [exec_dec24, unpackRaw_three_rom, respondLookup_some]

theorem exec_dec32_rom (c3 c2 c1 c0 : Code) (s : State) :
    exec (.dec32 (rom c3 ++ rom c2 ++ rom c1 ++ rom c0)) s = .next (answered s (zext32 (c3 ++ c2 ++ c1 ++ c0))) := by
  rw [exec_dec32, unpackRaw_four_rom, respondLookup_some]

/-- Settles O20: two entries unpack to their codes, and a string with another byte to nothing. -/
theorem dec16AnswersTheCodesOrNoCode : Obligations.Dec16AnswersTheCodesOrNoCode := by
  refine ⟨exec_dec16_rom, fun s1 s0 s h => answersNoCode_of_respondLookup_none ?_,
    encodedAs_of_decodeFields fun _ _ _ => rfl⟩
  rw [exec_dec16, unpackRaw_two_eq_none h]

/-- Settles O21: three entries unpack to their codes, and a string with another byte to nothing. -/
theorem dec24AnswersTheCodesOrNoCode : Obligations.Dec24AnswersTheCodesOrNoCode := by
  refine ⟨exec_dec24_rom, fun s2 s1 s0 s h => answersNoCode_of_respondLookup_none ?_,
    encodedAs_of_decodeFields fun _ _ _ => rfl⟩
  rw [exec_dec24, unpackRaw_three_eq_none h]

/-- Settles O22: four entries unpack to their codes, and a string with another byte to nothing. -/
theorem dec32AnswersTheCodesOrNoCode : Obligations.Dec32AnswersTheCodesOrNoCode := by
  refine ⟨exec_dec32_rom, fun s3 s2 s1 s0 s h => answersNoCode_of_respondLookup_none ?_,
    encodedAs_of_decodeFields fun _ _ _ => rfl⟩
  rw [exec_dec32, unpackRaw_four_eq_none h]

/-! ## Unpacking after packing -/

/-- The group codes of a payload of 8 bits, in order, are `id ++ p` (42_group_packer.md R95). -/
theorem zext32_codes_two (id : BitVec 4) (p : BitVec 8) :
    zext32 (id ++ p.extractLsb' 6 2 ++ p.extractLsb' 0 6) = zext32 (id ++ p) := by
  rw [zext32_append_fields (by decide), BitVec.extractLsb'_eq_self]

theorem zext32_codes_three (id : BitVec 4) (p : BitVec 14) :
    zext32 (id ++ p.extractLsb' 12 2 ++ p.extractLsb' 6 6 ++ p.extractLsb' 0 6) = zext32 (id ++ p) := by
  rw [zext32_append_fields (by decide), zext32_append_fields (by decide), BitVec.extractLsb'_eq_self]

theorem zext32_codes_four (id : BitVec 4) (p : BitVec 20) :
    zext32 (id ++ p.extractLsb' 18 2 ++ p.extractLsb' 12 6 ++ p.extractLsb' 6 6 ++ p.extractLsb' 0 6)
      = zext32 (id ++ p) := by
  rw [zext32_append_fields (by decide), zext32_append_fields (by decide), zext32_append_fields (by decide),
    BitVec.extractLsb'_eq_self]

/-- Settles O23: the symbols are the entries of the groups, whose codes in order are `id` and the payload. -/
theorem unpackingInvertsPacking : Obligations.UnpackingInvertsPacking := by
  refine fun id s u => ⟨fun p => ⟨_, exec_enc12 id p s, ?_⟩, fun p => ⟨_, exec_enc18 id p s, ?_⟩,
    fun p => ⟨_, exec_enc24 id p s, ?_⟩⟩
  · rw [extractLsb'_zext32 (by decide), exec_dec16_rom, ← zext32_codes_two]
  · rw [extractLsb'_zext32 (by decide), exec_dec24_rom, ← zext32_codes_three]
  · rw [exec_dec32_rom, ← zext32_codes_four]

/-! ## Packing is injective -/

/-- The result of an answer can be read off the outcome. -/
theorem next_answered_injective {s : State} {r r' : Word}
    (h : (Host.Outcome.next (answered s r) : Host.Outcome State Fault Refusal) = .next (answered s r')) : r = r' := by
  simpa [answered] using h

/-- Fields of given widths can be read off the string they make. -/
theorem append_injective {n m : Nat} {v v' : BitVec n} {w w' : BitVec m} (h : v ++ w = v' ++ w') :
    v = v' ∧ w = w' := by
  have hhigh := congrArg (BitVec.extractLsb' m n) h
  have hlow := congrArg (BitVec.extractLsb' 0 m) h
  rw [BitVec.extractLsb'_append_eq_left, BitVec.extractLsb'_append_eq_left] at hhigh
  rw [BitVec.extractLsb'_append_eq_right, BitVec.extractLsb'_append_eq_right] at hlow
  exact ⟨hhigh, hlow⟩

/-- The outcome `packed` answers a result that `unpack` answers with `v`. -/
def UnpacksTo (s u : State) (packed : Host.Outcome State Fault Refusal)
    (unpack : Word → Host.Outcome State Fault Refusal) (v : Word) : Prop :=
  ∃ r, packed = .next (answered s r) ∧ unpack r = .next (answered u v)

/-- An outcome unpacks to one string, and a string gives back its fields. -/
theorem UnpacksTo.operands_eq {n : Nat} {s u : State} {packed : Host.Outcome State Fault Refusal}
    {unpack : Word → Host.Outcome State Fault Refusal} {id id' : BitVec 4} {p p' : BitVec n}
    (h : UnpacksTo s u packed unpack (zext32 (id ++ p))) (h' : UnpacksTo s u packed unpack (zext32 (id' ++ p')))
    (hn : 4 + n ≤ 32) : id = id' ∧ p = p' := by
  obtain ⟨r, hpacked, hunpack⟩ := h
  obtain ⟨r', hpacked', hunpack'⟩ := h'
  obtain rfl : r = r' := next_answered_injective (hpacked.symm.trans hpacked')
  exact append_injective (zext32_injective hn (next_answered_injective (hunpack.symm.trans hunpack')))

/-- Settles O24: the operands can be read off the result by unpacking it. -/
theorem packingIsInjective : Obligations.PackingIsInjective := by
  intro id id' s
  obtain ⟨two, three, four⟩ := unpackingInvertsPacking id s s
  obtain ⟨two', three', four'⟩ := unpackingInvertsPacking id' s s
  refine ⟨fun p p' heq => ?_, fun p p' heq => ?_, fun p p' heq => ?_⟩
  · exact UnpacksTo.operands_eq (two p) (heq ▸ two' p') (by decide)
  · exact UnpacksTo.operands_eq (three p) (heq ▸ three' p') (by decide)
  · exact UnpacksTo.operands_eq (four p) (heq ▸ four' p') (by decide)

end Sys2Proof.Machine

/-! Proofs about 43_reply_encoder.md: the parts of the two address broadcasts and their period in the cycle, the sentinels,
and the wait that CUTOUT and CUTOUT_STD answer. -/

namespace Sys2Proof.Machine

/-! ## The parity of the cycle -/

/-- The bit that selects the part of an address broadcast is the parity of the cycle. -/
theorem getLsbD_zero_eq_parity (cycle : Byte) : cycle.getLsbD 0 = decide (cycle.toNat % 2 = 1) :=
  Nat.testBit_zero cycle.toNat

theorem getLsbD_zero_of_even {cycle : Byte} (h : cycle.toNat % 2 = 0) : cycle.getLsbD 0 = false := by
  rw [getLsbD_zero_eq_parity, h]
  rfl

theorem getLsbD_zero_of_odd {cycle : Byte} (h : cycle.toNat % 2 = 1) : cycle.getLsbD 0 = true := by
  rw [getLsbD_zero_eq_parity, h]
  rfl

/-- Two cycles on, the parity is the same, where the counter wraps at 8 bits too. -/
theorem getLsbD_zero_add_two (cycle : Byte) : (cycle + 2).getLsbD 0 = cycle.getLsbD 0 := by
  have hparity : (cycle + 2).toNat % 2 = cycle.toNat % 2 := by bv_omega
  rw [getLsbD_zero_eq_parity, hparity, ← getLsbD_zero_eq_parity]

/-! ## The address broadcasts -/

theorem exec_shortAddr (addr cycle : Byte) (s : State) :
    exec (.shortAddr addr cycle) s = .next (answered s (shortAddrFrame addr cycle)) := rfl

theorem exec_longAddr (high low cycle : Byte) (s : State) :
    exec (.longAddr high low cycle) s = .next (answered s (longAddrFrame high low cycle)) := rfl

/-- Part A of a short address does not read the address (43_reply_encoder.md R110). -/
theorem shortAddrFrame_even (addr : Byte) {cycle : Byte} (h : cycle.toNat % 2 = 0) :
    shortAddrFrame addr cycle = 0xA3AC := by
  have hpartA : packGroups 2 1 0 = 0xA3AC := by decide
  rw [shortAddrFrame, getLsbD_zero_of_even h, if_neg Bool.false_ne_true, hpartA]

theorem shortAddrFrame_odd (addr : Byte) {cycle : Byte} (h : cycle.toNat % 2 = 1) : shortAddrFrame addr cycle =
    zext32 (rom ((2 : BitVec 4) ++ addr.extractLsb' 6 2) ++ rom (addr.extractLsb' 0 6)) := by
  rw [shortAddrFrame, getLsbD_zero_of_odd h, if_pos rfl, packGroups_two]

/-- Part A's payload of a long address is `0b10` over the six low bits of `high` (43_reply_encoder.md R112). -/
theorem longAddrHighPayload_eq_append (high : Byte) :
    longAddrHighPayload high = (2 : BitVec 2) ++ high.extractLsb' 0 6 := by
  rw [← BitVec.setWidth_eq ((2 : BitVec 2) ++ high.extractLsb' 0 6), BitVec.setWidth_append_eq_shiftLeft_setWidth_or]
  rfl

theorem longAddrFrame_even (high low : Byte) {cycle : Byte} (h : cycle.toNat % 2 = 0) : longAddrFrame high low cycle =
    zext32 (rom ((1 : BitVec 4) ++ (2 : BitVec 2)) ++ rom (high.extractLsb' 0 6)) := by
  rw [longAddrFrame, getLsbD_zero_of_even h, if_neg Bool.false_ne_true, packGroups_two, longAddrHighPayload_eq_append,
    BitVec.extractLsb'_append_eq_left, BitVec.extractLsb'_append_eq_right]

theorem longAddrFrame_odd (high low : Byte) {cycle : Byte} (h : cycle.toNat % 2 = 1) : longAddrFrame high low cycle =
    zext32 (rom ((2 : BitVec 4) ++ low.extractLsb' 6 2) ++ rom (low.extractLsb' 0 6)) := by
  rw [longAddrFrame, getLsbD_zero_of_odd h, if_pos rfl, packGroups_two]

/-- Settles O25: bit 0 of the cycle selects the part; part A is constant and part B is the frame of group 2. -/
theorem shortAddrAnswersThePartOfTheCycle : Obligations.ShortAddrAnswersThePartOfTheCycle := by
  refine ⟨fun addr cycle s => ⟨fun h => ?_, fun h => ?_⟩, encodedAs_of_decodeFields fun _ _ _ => rfl⟩
  · rw [exec_shortAddr, shortAddrFrame_even addr h]
  · rw [exec_shortAddr, shortAddrFrame_odd addr h]

/-- Settles O26: bit 0 of the cycle selects the part; part A is the frame of group 1 and part B that of group 2. -/
theorem longAddrAnswersThePartOfTheCycle : Obligations.LongAddrAnswersThePartOfTheCycle := by
  refine ⟨fun high low cycle s => ⟨fun h => ?_, fun h => ?_⟩, encodedAs_of_decodeFields fun _ _ _ => rfl⟩
  · rw [exec_longAddr, longAddrFrame_even high low h]
  · rw [exec_longAddr, longAddrFrame_odd high low h]

/-- Settles O27: both commands read the parity of the cycle alone. -/
theorem addressBroadcastsHavePeriodTwo : Obligations.AddressBroadcastsHavePeriodTwo :=
  fun _ _ cycle s =>
    ⟨congrFun (execShortAddr_congr (getLsbD_zero_add_two cycle)) s,
      congrFun (execLongAddr_congr rfl (getLsbD_zero_add_two cycle)) s⟩

/-! ## The sentinels -/

theorem exec_sentinel (sel : BitVec 2) (s : State) :
    exec (.sentinel sel) s = .next (answered s (zext32 (sentinelSymbol sel))) := rfl

/-- DEC8 finds no code for a sentinel, which is not a table entry (43_reply_encoder.md R115). -/
theorem dec8_sentinelSymbol_answersNoCode (sel : BitVec 2) (s : State) :
    AnswersNoCode (.dec8 (sentinelSymbol sel)) s :=
  dec8_answersNoCode_of_none (romInverse_eq_none (not_isEntry_sentinelSymbol sel)) s

/-- Settles O28: each sentinel is answered as its symbol, and none of the symbols is a table entry. -/
theorem sentinelAnswersASymbolOutsideTheTable : Obligations.SentinelAnswersASymbolOutsideTheTable :=
  ⟨fun s => ⟨exec_sentinel 0 s, exec_sentinel 1 s, exec_sentinel 2 s, exec_sentinel 3 s,
      dec8_sentinelSymbol_answersNoCode 0 s, dec8_sentinelSymbol_answersNoCode 1 s,
      dec8_sentinelSymbol_answersNoCode 2 s, dec8_sentinelSymbol_answersNoCode 3 s⟩,
    encodedAs_of_decodeFields fun _ _ _ => rfl⟩

/-! ## The remaining wait -/

theorem exec_cutout (endTime offset now : Word) (s : State) :
    exec (.cutout endTime offset now) s = .next (answered s (cutoutRemaining endTime offset now)) := rfl

/-- The wait is the offset less the elapsed time, cut off at 0 as subtraction of naturals is (43_reply_encoder.md R117). -/
theorem toNat_cutoutRemaining (endTime offset now : Word) :
    (cutoutRemaining endTime offset now).toNat = offset.toNat - (now - endTime).toNat := by
  rw [cutoutRemaining, sub32]
  split
  next h =>
    rw [Nat.sub_eq_zero_of_le (BitVec.le_def.1 h)]
    rfl
  next h => exact BitVec.toNat_sub_of_le (BitVec.le_of_lt (BitVec.not_le.1 h))

/-- A difference of times is the difference of the integers modulo 2^32 (00_scope.md R10). -/
theorem toNat_sub_eq_emod (now endTime : Word) :
    ((now - endTime).toNat : Int) = ((now.toNat : Int) - endTime.toNat) % 2 ^ 32 := by
  bv_omega

/-- Settles O29: the elapsed time is the difference modulo 2^32, and the wait what is left of the offset. -/
theorem cutoutAnswersTheRemainingWait : Obligations.CutoutAnswersTheRemainingWait := by
  refine ⟨fun endTime offset now s => ⟨_, exec_cutout endTime offset now s, ?_⟩,
    encodedAs_of_decodeFields fun _ _ _ => rfl⟩
  rw [toNat_cutoutRemaining, ← toNat_sub_eq_emod]
  omega

/-! ## The standard offsets -/

/-- CUTOUT_STD is CUTOUT with the standard offset of its channel (43_reply_encoder.md R118). -/
theorem exec_cutoutStd (endTime : Word) (ch : BitVec 1) (now : Word) (s : State) :
    exec (.cutoutStd endTime ch now) s = exec (.cutout endTime (channelOffset s.params ch) now) s := rfl

/-- The standard offset of channel 1 of a parameter set that meets its constraints fits a word. -/
theorem toNat_channelOffset_zero {P : Params} (h : P.wf = true) : (channelOffset P 0).toNat = P.ch1Offset := by
  obtain ⟨-, -, -, -, -, -, -, -, hlt, hfits⟩ := P.wf_iff.1 h
  exact Nat.mod_eq_of_lt (hlt.trans hfits)

theorem toNat_channelOffset_one {P : Params} (h : P.wf = true) : (channelOffset P 1).toNat = P.ch2Offset := by
  obtain ⟨-, -, -, -, -, -, -, -, -, hfits⟩ := P.wf_iff.1 h
  exact Nat.mod_eq_of_lt hfits

/-- Settles O30: the offsets are the words of the two parameters, and CUTOUT_STD runs as CUTOUT with them. -/
theorem cutoutStdAnswersTheStandardChannelWait : Obligations.CutoutStdAnswersTheStandardChannelWait := by
  refine ⟨fun endTime now s hwf => ⟨_, _, toNat_channelOffset_zero hwf, toNat_channelOffset_one hwf, _, _,
    exec_cutout .., ?_, exec_cutout .., ?_⟩, encodedAs_of_decodeFields fun _ _ _ => rfl⟩
  · rw [exec_cutoutStd, exec_cutout]
  · rw [exec_cutoutStd, exec_cutout]

end Sys2Proof.Machine

/-! Proofs about 44_bitstream_decoder.md: an EDGE's case determines its transition, `level` and `ready` are written but never
read, every rise of `ready` ends a well-framed packet, and what each EDGE and each consumer command does. -/

namespace Sys2Proof.Machine

/-! ## The case of an EDGE determines its transition -/

theorem onBit_eq_of_effect {P : Params} {b : Bool} {now : Word} {d : Decoder} {t : Transition}
    (effect : BitEffect P b now d t) : onBit P b now d = t := by
  cases effect with
  | counted hs hb => rcases hs with hs | hs <;> simp [onBit, hs, preambleBit, hb]
  | started hs hb hp => rcases hs with hs | hs <;> simp [onBit, hs, preambleBit, hb, endPreamble, hp]
  | restarted hs hb hp =>
    rcases hs with hs | hs <;> simp [onBit, hs, preambleBit, hb, endPreamble, Nat.not_le.2 hp]
  | shifted hs hc => exact onBit_shift b hs hc
  | overflowed hs hc hl => simp [onBit, hs, dataBit, hc, hl]
  | stored hs hc hl => exact onBit_store b hs hc hl
  | continued hs hb => rw [hb, onBit_continue hs]
  | published hs hb hx => simp [hb, onBit_end hs, endPacket, checksumValid, hx]
  | dropped hs hb hx => simpa [hb, onBit_end hs, endPacket, checksumValid] using hx

theorem edgeTransition_eq_of_effect {P : Params} {now : Word} {lvl : Bool} {d : Decoder} {t : Transition}
    (effect : EdgeEffect P now lvl d t) : edgeTransition P now lvl d = t := by
  cases effect with
  | primes hp => simp [edgeTransition, hp]
  | invalid hp hc => simp [edgeTransition, hp, hc, takeInterval]
  | firstHalf c hp hc hh => exact edgeTransition_firstHalf hp hc hh
  | bit c hp hc hh he completed => rw [edgeTransition_secondHalf hp hc hh he, onBit_eq_of_effect completed]
  | keptSecond c hp hc hh he hm => simp [edgeTransition, hp, hc, takeInterval, takeHalf, hh, he, mismatch, hm]
  | droppedBoth c hp hc hh he hm => simp [edgeTransition, hp, hc, takeInterval, takeHalf, hh, he, mismatch, hm]

/-! ## When `ready` rises -/

/-- An EDGE at `now` completes the end bit of a packet with a valid checksum (44_bitstream_decoder.md R139). -/
structure CompletesPacket (P : Params) (now : Word) (d : Decoder) : Prop where
  primed : d.primed = true
  halfPending : d.halfPending = true
  halfClass : d.halfClass = .one
  interval : classify P (sub32 now d.lastT) = .valid .one
  endBit : d.state = .waitEndBit
  checksum : d.xorSum = 0

theorem completesPacket_iff (s : State) (now : Word) : CompletesPacket s.params now s.dec ↔
    ClosesBit s now true ∧ s.dec.state = .waitEndBit ∧ s.dec.xorSum = 0 :=
  ⟨fun h => ⟨⟨h.primed, h.halfPending, h.halfClass, h.interval⟩, h.endBit, h.checksum⟩,
    fun ⟨⟨hp, hh, he, hc⟩, hs, hx⟩ => ⟨hp, hh, he, hc, hs, hx⟩⟩

/-- That EDGE publishes the packet. -/
theorem edgeTransition_of_completesPacket {P : Params} {now : Word} {d : Decoder} (h : CompletesPacket P now d)
    (lvl : Bool) : edgeTransition P now lvl d =
      (leavePacket P (publishPacket now { recordEdge now lvl d with halfPending := false }), none) :=
  edgeTransition_eq_of_effect
    (.bit .one h.primed h.interval h.halfPending h.halfClass (.published h.endBit rfl h.checksum))

/-- Of the bits only the end bit of a packet with a valid checksum writes `ready`. -/
theorem bitEffect_ready {P : Params} {b : Bool} {now : Word} {d : Decoder} {t : Transition}
    (effect : BitEffect P b now d t) (hr : t.1.ready = true) :
    d.ready = true ∨ (b = true ∧ d.state = .waitEndBit ∧ d.xorSum = 0) := by
  cases effect with
  | published hs hb hx => exact .inr ⟨hb, hs, hx⟩
  | counted | started | restarted | shifted | overflowed | stored | continued | dropped => exact .inl hr

theorem ready_edgeTransition_iff (P : Params) (now : Word) (lvl : Bool) (d : Decoder) :
    (edgeTransition P now lvl d).1.ready = true ↔ d.ready = true ∨ CompletesPacket P now d := by
  refine ⟨fun hr => ?_, ?_⟩
  · have effect := edgeTransition_effect P now lvl d
    generalize edgeTransition P now lvl d = t at effect hr
    cases effect with
    | primes | invalid | firstHalf | keptSecond | droppedBoth => exact .inl hr
    | bit c hp hc hh he completed =>
      refine (bitEffect_ready completed hr).imp id ?_
      rintro ⟨hone, hs, hx⟩
      obtain rfl : c = .one := by simpa using hone
      exact ⟨hp, hh, he, hc, hs, hx⟩
  · rintro (hr | closes)
    · exact (edgeTransition_frame P now lvl d).ready hr
    · rw [edgeTransition_of_completesPacket closes]
      rfl

/-! ## `level` and `ready` are written but never read -/

/-- The decoder without `level` and `ready`. -/
def unmarked (d : Decoder) : Decoder := { d with level := false, ready := false }

theorem eq_of_unmarked_eq {d e : Decoder} (h : unmarked d = unmarked e) (hlevel : d.level = e.level)
    (hready : d.ready = e.ready) : d = e := by
  cases d
  cases e
  simp_all [unmarked]

theorem completesPacket_unmarked (P : Params) (now : Word) (d : Decoder) :
    CompletesPacket P now (unmarked d) ↔ CompletesPacket P now d :=
  ⟨fun h => { h with }, fun h => { h with }⟩

/-- A bit has the same case in the decoder without the two registers. -/
theorem bitEffect_unmarked {P : Params} {b : Bool} {now : Word} {d : Decoder} {t : Transition}
    (effect : BitEffect P b now d t) : ∃ t', BitEffect P b now (unmarked d) t' ∧ unmarked t.1 = unmarked t'.1 := by
  cases effect with
  | counted hs hb => exact ⟨_, .counted hs hb, rfl⟩
  | started hs hb hp => exact ⟨_, .started hs hb hp, rfl⟩
  | restarted hs hb hp => exact ⟨_, .restarted hs hb hp, rfl⟩
  | shifted hs hc => exact ⟨_, .shifted hs hc, rfl⟩
  | overflowed hs hc hl => exact ⟨_, .overflowed hs hc hl, rfl⟩
  | stored hs hc hl => exact ⟨_, .stored hs hc hl, rfl⟩
  | continued hs hb => exact ⟨_, .continued hs hb, rfl⟩
  | published hs hb hx => exact ⟨_, .published hs hb hx, rfl⟩
  | dropped hs hb hx => exact ⟨_, .dropped hs hb hx, rfl⟩

theorem unmarked_onBit (P : Params) (b : Bool) (now : Word) (d : Decoder) :
    unmarked (onBit P b now d).1 = unmarked (onBit P b now (unmarked d)).1 := by
  obtain ⟨t', effect', heq⟩ := bitEffect_unmarked (onBit_effect P b now d)
  rw [heq, onBit_eq_of_effect effect']

/-- An EDGE of either level has the same case in the decoder without the two registers. -/
theorem edgeEffect_unmarked {P : Params} {now : Word} {lvl : Bool} {d : Decoder} {t : Transition}
    (effect : EdgeEffect P now lvl d t) :
    ∃ t', EdgeEffect P now false (unmarked d) t' ∧ unmarked t.1 = unmarked t'.1 := by
  cases effect with
  | primes hp => exact ⟨_, .primes hp, rfl⟩
  | invalid hp hc => exact ⟨_, .invalid hp hc, rfl⟩
  | firstHalf c hp hc hh => exact ⟨_, .firstHalf c hp hc hh, rfl⟩
  | bit c hp hc hh he completed =>
    obtain ⟨t', completed', heq⟩ := bitEffect_unmarked completed
    exact ⟨t', .bit (d := unmarked d) c hp hc hh he completed', heq⟩
  | keptSecond c hp hc hh he hm => exact ⟨_, .keptSecond c hp hc hh he hm, rfl⟩
  | droppedBoth c hp hc hh he hm => exact ⟨_, .droppedBoth c hp hc hh he hm, rfl⟩

/-- Decoders that differ in `level` and `ready` only, and EDGEs that differ in the level only, leave such decoders. -/
theorem unmarked_edgeTransition {P : Params} {now : Word} {d e : Decoder} (h : unmarked d = unmarked e)
    (lvl lvl' : Bool) : unmarked (edgeTransition P now lvl d).1 = unmarked (edgeTransition P now lvl' e).1 := by
  obtain ⟨t, effect, heq⟩ := edgeEffect_unmarked (edgeTransition_effect P now lvl d)
  obtain ⟨t', effect', heq'⟩ := edgeEffect_unmarked (edgeTransition_effect P now lvl' e)
  rw [h] at effect
  rw [heq, heq', ← edgeTransition_eq_of_effect effect, ← edgeTransition_eq_of_effect effect']

/-! ## What the other commands do to the decoder -/

/-- Only EDGE, READ_CLEAR and CLEAR_READY write the decoder, and the last two clear `ready` only. -/
theorem exec_of_not_edge {i : Instr} (hi : ∀ now lvl, i ≠ .edge now lvl) (s : State) :
    ∃ t, exec i s = .next t ∧ t.params = s.params
      ∧ (t.dec = s.dec ∨ ((i = .readClear ∨ i = .clearReady) ∧ t.dec = clearReadyFlag s.dec)) := by
  cases i with
  | edge now lvl => exact absurd rfl (hi now lvl)
  | readClear => exact ⟨_, rfl, rfl, .inr ⟨.inl rfl, rfl⟩⟩
  | clearReady => exact ⟨_, rfl, rfl, .inr ⟨.inr rfl, rfl⟩⟩
  | dec8 | dec16 | dec24 | dec32 => exact ⟨_, rfl, respondLookup_params _ s, .inl (respondLookup_dec _ s)⟩
  | readPacket | enc6 | enc12 | enc18 | enc24 | shortAddr | longAddr | sentinel | cutout | cutoutStd =>
    exact ⟨_, rfl, rfl, .inl rfl⟩

/-- Settles O51: by the command; an EDGE keeps `ready` within its frame. -/
theorem onlyEdgeMovesTheDecoder : Obligations.OnlyEdgeMovesTheDecoder :=
  ⟨fun _ s hi => exec_of_not_edge hi s,
    fun s now lvl => ⟨_, exec_edge now lvl s, rfl, (edgeTransition_frame s.params now (bit lvl) s.dec).ready⟩⟩

/-! ## A run of commands and the run of its EDGEs -/

theorem after_of_exec {i : Instr} {s t : State} (h : exec i s = .next t) : after i s = t := by
  rw [after, h]

theorem edgeOf_of_not_edge {i : Instr} (hi : ∀ now lvl, i ≠ .edge now lvl) : edgeOf i = none := by
  cases i with
  | edge now lvl => exact absurd rfl (hi now lvl)
  | _ => rfl

/-- The parameters and the decoder but for `level` and `ready` are the same. -/
def AlikeUnmarked (s u : State) : Prop := s.params = u.params ∧ unmarked s.dec = unmarked u.dec

theorem alikeUnmarked_after_edge {s u : State} (h : AlikeUnmarked s u) (e : Word × BitVec 1) :
    AlikeUnmarked (after (.edge e.1 e.2) s) (after (.edge e.1 e.2) u) := by
  obtain ⟨hparams, hdec⟩ := h
  refine ⟨hparams, ?_⟩
  rw [after_edge, after_edge, hparams]
  exact unmarked_edgeTransition hdec _ _

theorem alikeUnmarked_after_of_not_edge {i : Instr} (hi : ∀ now lvl, i ≠ .edge now lvl) (s : State) :
    AlikeUnmarked (after i s) s := by
  obtain ⟨t, hexec, hparams, hdec⟩ := exec_of_not_edge hi s
  rw [after_of_exec hexec]
  refine ⟨hparams, ?_⟩
  rcases hdec with hdec | ⟨-, hdec⟩ <;> rw [hdec]
  rfl

/-- The commands between the EDGEs leave no trace but in `ready`. -/
theorem alikeUnmarked_afterAll (cmds : List Instr) {s u : State} (h : AlikeUnmarked s u) :
    AlikeUnmarked (afterAll s cmds) (afterEdges u (edgesIn cmds)) := by
  induction cmds generalizing s u with
  | nil => exact h
  | cons i cmds ih =>
    by_cases hi : ∃ now lvl, i = .edge now lvl
    · obtain ⟨now, lvl, rfl⟩ := hi
      exact ih (alikeUnmarked_after_edge h (now, lvl))
    · have hi : ∀ now lvl, i ≠ .edge now lvl := fun now lvl heq => hi ⟨now, lvl, heq⟩
      obtain ⟨hparams, hdec⟩ := alikeUnmarked_after_of_not_edge hi s
      rw [edgesIn, List.filterMap_cons_none (edgeOf_of_not_edge hi)]
      exact ih ⟨hparams.trans h.1, hdec.trans h.2⟩

theorem afterEdges_blockInv {s : State} (h : BlockInv s) (es : List (Word × BitVec 1)) :
    BlockInv (afterEdges s es) := by
  induction es generalizing s with
  | nil => exact h
  | cons e es ih =>
    obtain ⟨hwf, hdec⟩ := (blockInv_iff s).1 h
    exact ih ((blockInv_iff _).2 ⟨hwf, edgeTransition_keeps e.1 (bit e.2) hwf hdec⟩)

/-! ## The bits of a packet that a decoder has taken -/

/-- The classes of the intervals that edges measure. -/
def edgeClasses (s : State) (es : List (Word × BitVec 1)) : List IntervalClass :=
  (intervals s.dec.lastT es).map (classify s.params)

theorem carries_iff {s : State} {es : List (Word × BitVec 1)} {bits : List Bool} :
    Carries s es bits ↔ edgeClasses s es = halvesOfBits bits := Iff.rfl

theorem edgeClasses_cons (s : State) (e : Word × BitVec 1) (es : List (Word × BitVec 1)) :
    edgeClasses s (e :: es) =
      classify s.params (sub32 e.1 s.dec.lastT) :: edgeClasses (after (.edge e.1 e.2) s) es := by
  simp [edgeClasses, intervals]

/-- The last edge measures from the time that the edges before it left. -/
theorem edgeClasses_concat (s : State) (es : List (Word × BitVec 1)) (e : Word × BitVec 1) :
    edgeClasses s (es ++ [e]) =
      edgeClasses s es ++ [classify s.params (sub32 e.1 (afterEdges s es).dec.lastT)] := by
  induction es generalizing s with
  | nil => rfl
  | cons e' es ih => simp [edgeClasses_cons, ih]

theorem halvesOfBits_concat (bits : List Bool) (b : Bool) :
    halvesOfBits (bits ++ [b]) = halvesOfBits bits ++ [.valid (classOfBit b), .valid (classOfBit b)] := by
  simp [halvesOfBits]

theorem framedBits_concat (bytes : List Byte) (v : Byte) :
    framedBits (bytes ++ [v]) = framedBits bytes ++ false :: bitsOfByte v := by
  simp [framedBits]

/-- Any eight bits are those of a byte. -/
theorem exists_bitsOfByte {bits : List Bool} (h : bits.length = 8) : ∃ v, bitsOfByte v = bits := by
  match bits, h with
  | [b7, b6, b5, b4, b3, b2, b1, b0], _ =>
    refine ⟨BitVec.ofBoolListBE [b7, b6, b5, b4, b3, b2, b1, b0], ?_⟩
    revert b7 b6 b5 b4 b3 b2 b1 b0
    decide

/-- The bits that a decoder has taken since a preamble that qualified: none before the start bit, after it framed bytes, as
many as `len` says, and the part of a byte that `WaitData` assembles. -/
inductive TakenBits (d : Decoder) : List Bool → Prop where
  | preamble (hs : d.state = .waitPreamble) : TakenBits d []
  | data (hs : d.state = .waitData) (bytes : List Byte) (hlen : bytes.length = d.len.toNat) (part : List Bool)
      (hpart : part.length = d.bitCnt.toNat) : TakenBits d (framedBits bytes ++ false :: part)
  | endBit (hs : d.state = .waitEndBit) (bytes : List Byte) (hlen : bytes.length = d.len.toNat) :
      TakenBits d (framedBits bytes)

theorem takenBits_congr {d e : Decoder} {bits : List Bool} (h : TakenBits d bits) (hs : e.state = d.state)
    (hl : e.len = d.len) (hc : e.bitCnt = d.bitCnt) : TakenBits e bits := by
  cases h with
  | preamble h => exact .preamble (hs.trans h)
  | data h bytes hlen part hpart => exact .data (hs.trans h) bytes (hl ▸ hlen) part (hc ▸ hpart)
  | endBit h bytes hlen => exact .endBit (hs.trans h) bytes (hl ▸ hlen)

/-- `WaitPreamble`, with too short a preamble for a start bit if a half-bit waits already: after a mismatch that half-bit is
what `KeepSecond` kept, and no bit boundary lies before it. -/
def Hunting (P : Params) (d : Decoder) : Prop :=
  d.state = .waitPreamble ∧ (d.halfPending = true → d.preCnt.toNat < P.preambleMin)

section
variable {P : Params} {b : Bool} {now : Word} {d : Decoder} {t : Transition}

/-- After a short preamble no bit starts a packet. -/
theorem hunting_of_bit (effect : BitEffect P b now d t) (hs : d.state = .waitPreamble) (hh : d.halfPending = false)
    (hfew : d.preCnt.toNat < P.preambleMin) : Hunting P t.1 := by
  cases effect with
  | counted | restarted => exact ⟨hs, by simp [hh]⟩
  | started _ _ hp => omega
  | shifted hd | overflowed hd | stored hd | continued hd | published hd | dropped hd => simp [hs] at hd

/-- A bit joins the packet, or the decoder hunts for the next preamble. -/
theorem takenBits_bit (effect : BitEffect P b now d t) (hwf : P.wf = true) (hh : d.halfPending = false)
    {bits : List Bool} (h : TakenBits d bits) : Hunting P t.1 ∨ TakenBits t.1 (bits ++ [b]) := by
  have hunts {e : Decoder} (hs : e.state = .waitPreamble) (hh : e.halfPending = false) : Hunting P e :=
    ⟨hs, by simp [hh]⟩
  cases h with
  | preamble hs =>
    cases effect with
    | counted | restarted => exact .inl (hunts hs hh)
    | started _ hb => exact .inr (hb ▸ .data rfl [] rfl [] rfl)
    | shifted hd | overflowed hd | stored hd | continued hd | published hd | dropped hd => simp [hs] at hd
  | data hs bytes hlen part hpart =>
    cases effect with
    | shifted _ hc =>
      have hcnt : (d.bitCnt + 1).toNat = d.bitCnt.toNat + 1 := BitVec.toNat_add_of_lt (by simp; omega)
      rw [List.append_assoc, List.cons_append]
      exact .inr (.data (d := shiftBit d b) hs bytes hlen (part ++ [b]) (by rw [shiftBit_bitCnt, hcnt]; simp [hpart]))
    | overflowed => exact .inl (hunts rfl rfl)
    | stored _ hc hl =>
      obtain ⟨v, hv⟩ := exists_bitsOfByte (bits := part ++ [b]) (by simp; omega)
      rw [List.append_assoc, List.cons_append, ← hv, ← framedBits_concat]
      exact .inr (.endBit rfl (bytes ++ [v]) (by
        rw [quiet_decoder, storeByte_len_toNat _ hwf hl, List.length_append, hlen, List.length_singleton]))
    | counted hd | started hd | restarted hd => simp [hs] at hd
    | continued hd | published hd | dropped hd => simp [hs] at hd
  | endBit hs bytes hlen =>
    cases effect with
    | continued _ hb => exact .inr (hb ▸ .data (d := continuePacket d) rfl bytes hlen [] rfl)
    | published | dropped => exact .inl (hunts rfl hh)
    | counted hd | started hd | restarted hd => simp [hs] at hd
    | shifted hd | overflowed hd | stored hd => simp [hs] at hd

end

/-! ## The EDGEs of the packet in progress -/

/-- The half-bit that waits for its partner, as the class of its interval. -/
def waitingHalf (d : Decoder) : List IntervalClass := if d.halfPending then [.valid d.halfClass] else []

theorem waitingHalf_of_none {d : Decoder} (h : d.halfPending = false) : waitingHalf d = [] := by
  simp [waitingHalf, h]

theorem waitingHalf_of_pending {d : Decoder} {c : HalfClass} (h : d.halfPending = true) (hc : d.halfClass = c) :
    waitingHalf d = [.valid c] := by
  simp [waitingHalf, h, hc]

/-- The edges `before` left a block between bits, with a preamble that qualifies. -/
structure MayStart (s : State) (before : List (Word × BitVec 1)) : Prop where
  between : BetweenBits (afterEdges s before)
  state : (afterEdges s before).dec.state = .waitPreamble
  counted : s.params.preambleMin ≤ (afterEdges s before).dec.preCnt.toNat

/-- The edges `es` end with those of a packet in progress: they carry the bits that the decoder has taken of it, and the
half-bit that waits. -/
def InPacket (s : State) (es : List (Word × BitVec 1)) : Prop :=
  ∃ before packet bits, es = before ++ packet ∧ MayStart s before ∧ TakenBits (afterEdges s es).dec bits
    ∧ edgeClasses (afterEdges s before) packet = halvesOfBits bits ++ waitingHalf (afterEdges s es).dec

/-- What a run of edges leaves: a hunt for a preamble or a packet in progress. -/
def Framed (s : State) (es : List (Word × BitVec 1)) : Prop := Hunting s.params (afterEdges s es).dec ∨ InPacket s es

theorem afterEdges_concat_dec (s : State) (es : List (Word × BitVec 1)) (e : Word × BitVec 1) :
    (afterEdges s (es ++ [e])).dec = (edgeTransition s.params e.1 (bit e.2) (afterEdges s es).dec).1 := by
  rw [afterEdges_append, afterEdges_cons, afterEdges_nil, after_edge, afterEdges_params]

section
variable {s : State} {es before packet : List (Word × BitVec 1)} {e : Word × BitVec 1} {c : HalfClass}
  (hc : classify s.params (sub32 e.1 (afterEdges s es).dec.lastT) = .valid c)
include hc

/-- The edge after those of a packet in progress adds its half-bit to what they carry. -/
theorem edgeClasses_packet_concat (hes : es = before ++ packet) : edgeClasses (afterEdges s before) (packet ++ [e]) =
    edgeClasses (afterEdges s before) packet ++ [.valid c] := by
  rw [edgeClasses_concat, afterEdges_params, ← afterEdges_append, ← hes, hc]

/-- A first half waits: at the end of the packet in progress, or as the first of one after a preamble that qualifies. -/
theorem framed_of_firstHalf (hp : (afterEdges s es).dec.primed = true) (hh : (afterEdges s es).dec.halfPending = false)
    (hdec : (afterEdges s (es ++ [e])).dec = holdHalf c (recordEdge e.1 (bit e.2) (afterEdges s es).dec))
    (h : Framed s es) : Framed s (es ++ [e]) := by
  have waiting : waitingHalf (afterEdges s (es ++ [e])).dec = [.valid c] :=
    waitingHalf_of_pending (by rw [hdec, holdHalf_halfPending]) (by rw [hdec, holdHalf_halfClass])
  have kept {bits : List Bool} (taken : TakenBits (afterEdges s es).dec bits) :
      TakenBits (afterEdges s (es ++ [e])).dec bits := hdec ▸ takenBits_congr taken rfl rfl rfl
  rcases h with ⟨hs, -⟩ | ⟨before, packet, bits, hes, start, taken, hclasses⟩
  · by_cases hmin : s.params.preambleMin ≤ (afterEdges s es).dec.preCnt.toNat
    · refine .inr ⟨es, [e], [], rfl, ⟨⟨hp, hh⟩, hs, hmin⟩, kept (.preamble hs), ?_⟩
      rw [waiting, edgeClasses_cons, afterEdges_params, hc]
      rfl
    · exact .inl (hdec ▸ ⟨hs, fun _ => Nat.lt_of_not_le hmin⟩)
  · refine .inr ⟨before, packet ++ [e], bits, by rw [hes, List.append_assoc], start, kept taken, ?_⟩
    rw [edgeClasses_packet_concat hc hes, hclasses, waitingHalf_of_none hh, List.append_nil, waiting]

/-- The second half that closes a bit completes what the edges of a packet in progress carry. -/
theorem edgeClasses_closed {bits : List Bool} (hes : es = before ++ packet)
    (hh : (afterEdges s es).dec.halfPending = true) (he : (afterEdges s es).dec.halfClass = c)
    (hclasses : edgeClasses (afterEdges s before) packet = halvesOfBits bits ++ waitingHalf (afterEdges s es).dec) :
    Carries (afterEdges s before) (packet ++ [e]) (bits ++ [c == .one]) := by
  have hclass : classOfBit (c == .one) = c := by cases c <;> rfl
  rw [carries_iff, edgeClasses_packet_concat hc hes, hclasses, waitingHalf_of_pending hh he, halvesOfBits_concat, hclass,
    List.append_assoc]
  rfl

/-- A closed bit joins the packet in progress, or ends it. -/
theorem framed_of_bit (hwf : s.params.wf = true) (hh : (afterEdges s es).dec.halfPending = true)
    (he : (afterEdges s es).dec.halfClass = c)
    (completed : BitEffect s.params (c == .one) e.1
      { recordEdge e.1 (bit e.2) (afterEdges s es).dec with halfPending := false }
      (edgeTransition s.params e.1 (bit e.2) (afterEdges s es).dec))
    (h : Framed s es) : Framed s (es ++ [e]) := by
  unfold Framed InPacket
  rw [afterEdges_concat_dec]
  rcases h with ⟨hs, hfew⟩ | ⟨before, packet, bits, hes, start, taken, hclasses⟩
  · exact .inl (hunting_of_bit completed hs rfl (hfew hh))
  · refine (takenBits_bit completed hwf rfl (takenBits_congr taken rfl rfl rfl)).imp id fun taken' =>
      ⟨before, packet ++ [e], _, by rw [hes, List.append_assoc], start, taken', ?_⟩
    rw [waitingHalf_of_none ((bitEffect_frame completed).halfPending rfl), List.append_nil]
    exact edgeClasses_closed hc hes hh he hclasses

end

/-- An edge keeps what a run of edges leaves. -/
theorem framed_concat {s : State} {es : List (Word × BitVec 1)} (e : Word × BitVec 1) (hs : BlockInv s)
    (h : Framed s es) : Framed s (es ++ [e]) := by
  obtain ⟨-, -, -, hmin, -⟩ := s.params.wf_iff.1 hs.params
  have inv := afterEdges_blockInv hs es
  have effect := edgeTransition_effect s.params e.1 (bit e.2) (afterEdges s es).dec
  have hdec := afterEdges_concat_dec s es e
  generalize ht : edgeTransition s.params e.1 (bit e.2) (afterEdges s es).dec = t at effect hdec
  cases effect with
  | primes hp =>
    obtain ⟨hh, hw⟩ := inv.control.unprimed hp
    exact .inl (hdec ▸ ⟨hw, by simp [hh]⟩)
  | invalid | droppedBoth => exact .inl (hdec ▸ ⟨rfl, by simp⟩)
  | keptSecond => exact .inl (hdec ▸ ⟨rfl, fun _ => hmin⟩)
  | firstHalf c hp hc hh => exact framed_of_firstHalf hc hp hh hdec h
  | bit c hp hc hh he completed => exact framed_of_bit hc hs.params hh he (ht ▸ completed) h

theorem framed_of_waitPreamble {s : State} (hs : BlockInv s) (hw : s.dec.state = .waitPreamble)
    (hh : s.dec.halfPending = false) (es : List (Word × BitVec 1)) : Framed s es := by
  induction es using List.reverseRecOn with
  | nil => exact .inl ⟨hw, by simp [hh]⟩
  | append_singleton es e ih => exact framed_concat e hs ih

/-! ## Every rise of `ready` ends a well-framed packet -/

/-- The end bit closes a packet in progress: the edges before it carry framed bytes, as many as `len` says. -/
theorem carries_of_completesPacket {s : State} {es : List (Word × BitVec 1)} {e : Word × BitVec 1} (h : Framed s es)
    (closes : CompletesPacket s.params e.1 (afterEdges s es).dec) :
    ∃ before packet bytes, es = before ++ packet ∧ MayStart s before
      ∧ bytes.length = (afterEdges s es).dec.len.toNat
      ∧ Carries (afterEdges s before) (packet ++ [e]) (bitsOfPacket 0 bytes) := by
  obtain ⟨-, hh, he, hc, hs, -⟩ := closes
  rcases h with ⟨hw, -⟩ | ⟨before, packet, bits, hes, start, taken, hclasses⟩
  · simp [hs] at hw
  · cases taken with
    | preamble hw | data hw => simp [hs] at hw
    | endBit _ bytes hlen =>
      exact ⟨before, packet, bytes, hes, start, hlen, edgeClasses_closed hc hes hh he hclasses⟩

/-- The bytes that the buffer holds have the exclusive-or of the packet. -/
theorem foldl_xor_eq_packetXor {d : Decoder} {bytes : List Byte} (hlen : d.len.toNat = bytes.length)
    (hstored : ∀ i v, bytes[i]? = some v → bufRead d i = v) : bytes.foldl (fun x v => x ^^^ v) 0 = packetXor d := by
  have hbytes : bytes = (List.range d.len.toNat).map (bufRead d) := by
    refine List.ext_getElem (by simp [hlen]) fun i hi _ => ?_
    simp [hstored i _ (List.getElem?_eq_getElem hi)]
  exact (congrArg (List.foldl (fun x v => x ^^^ v) 0) hbytes).trans List.foldl_map

/-- The packet registers hold a packet (44_bitstream_decoder.md R137, R139). -/
structure HoldsPacket (d : Decoder) (bytes : List Byte) (time : Word) (preamble : BitVec 8) : Prop where
  len : d.len.toNat = bytes.length
  stored : ∀ i v, bytes[i]? = some v → bufRead d i = v
  pktTime : d.pktTime = time
  pktPre : d.pktPre = preamble

theorem holdsPacket_of_unmarked_eq {d e : Decoder} {bytes : List Byte} {time : Word} {preamble : BitVec 8}
    (h : unmarked d = unmarked e) (he : HoldsPacket e bytes time preamble) : HoldsPacket d bytes time preamble where
  len := (congrArg (fun d => d.len.toNat) h).trans he.len
  stored i v hv := (congrArg (fun d => bufRead d i) h).trans (he.stored i v hv)
  pktTime := (congrArg Decoder.pktTime h).trans he.pktTime
  pktPre := (congrArg Decoder.pktPre h).trans he.pktPre

/-- The packet that an end bit publishes is the one that the edges carried: it is delivered as 44_bitstream_decoder.md R149
says, and its bytes have the running exclusive-or. -/
theorem holdsPacket_of_carries {s : State} {es before packet : List (Word × BitVec 1)} {e : Word × BitVec 1}
    {bytes : List Byte} (hinv : BlockInv s) (rises : CompletesPacket s.params e.1 (afterEdges s es).dec)
    (hes : es = before ++ packet) (start : MayStart s before) (hpos : 1 ≤ bytes.length)
    (hmax : bytes.length ≤ s.params.maxLen)
    (hcarries : Carries (afterEdges s before) (packet ++ [e]) (bitsOfPacket 0 bytes)) :
    bytes.foldl (fun x v => x ^^^ v) 0 = 0
      ∧ HoldsPacket (afterEdges s (es ++ [e])).dec bytes e.1 (afterEdges s before).dec.preCnt := by
  have inv := afterEdges_blockInv hinv before
  have hcap := inv.control.preCntFits
  have delivered := aWellFramedPacketIsDelivered (afterEdges s before) packet 0 bytes e inv start.between start.state
    (by rw [afterEdges_params]; exact start.counted) hpos (by rwa [afterEdges_params]) hcarries
  rw [← afterEdges_append, ← List.append_assoc, ← hes] at delivered
  obtain ⟨-, hlen, hstored, hvalid, -⟩ := delivered
  have hxor : bytes.foldl (fun x v => x ^^^ v) 0 = 0 := by
    have invAfter := afterEdges_blockInv hinv (es ++ [e])
    rw [foldl_xor_eq_packetXor hlen hstored, ← invAfter.checksum, afterEdges_concat_dec,
      edgeTransition_of_completesPacket rises]
    exact rises.checksum
  obtain ⟨-, htime, hpre⟩ := hvalid hxor
  exact ⟨hxor, hlen, hstored, htime, BitVec.eq_of_toNat_eq (by omega)⟩

/-- A rise of `ready` in a run of commands completes a packet in the run of its EDGEs. -/
theorem completesPacket_of_rise {s : State} {cmds : List Instr} {now : Word} {lvl : BitVec 1}
    (hlow : (afterAll s cmds).dec.ready = false)
    (hhigh : (afterAll s (cmds ++ [.edge now lvl])).dec.ready = true) :
    CompletesPacket s.params now (afterEdges s (edgesIn cmds)).dec := by
  obtain ⟨hparams, hdec⟩ : AlikeUnmarked (afterAll s cmds) (afterEdges s (edgesIn cmds)) :=
    alikeUnmarked_afterAll cmds ⟨rfl, rfl⟩
  rw [afterAll_append, afterAll_cons, afterAll_nil, after_edge, ready_edgeTransition_iff, hlow, hparams,
    afterEdges_params, ← completesPacket_unmarked, hdec, completesPacket_unmarked] at hhigh
  exact hhigh.resolve_left Bool.false_ne_true

/-- Settles O57: the EDGEs act as they do without the other commands, those since the preamble carry the packet in progress,
and the decoder delivers it. -/
theorem readyRisesOnlyAfterAWellFramedPacket : Obligations.ReadyRisesOnlyAfterAWellFramedPacket := by
  intro s cmds now lvl hinv hw hh hlow hhigh
  have rises := completesPacket_of_rise hlow hhigh
  obtain ⟨before, packet, bytes, hes, start, hlen, hcarries⟩ := carries_of_completesPacket (e := (now, lvl))
    (framed_of_waitPreamble hinv hw hh (edgesIn cmds)) rises
  have inv := afterEdges_blockInv hinv (edgesIn cmds)
  have hpos : 1 ≤ bytes.length := hlen ▸ (inv.control.endBitAfterByte rises.endBit).2
  have hmax : bytes.length ≤ s.params.maxLen := by
    rw [hlen, ← afterEdges_params s (edgesIn cmds)]
    exact inv.control.lenFits
  obtain ⟨hxor, held⟩ := holdsPacket_of_carries hinv rises hes start hpos hmax hcarries
  obtain ⟨-, hlast⟩ := alikeUnmarked_afterAll (cmds ++ [.edge now lvl]) (s := s) ⟨rfl, rfl⟩
  rw [edgesIn_append, edgesIn_edge] at hlast
  obtain ⟨hlenAfter, hstored, htime, hpre⟩ := holdsPacket_of_unmarked_eq hlast held
  exact ⟨before, packet ++ [(now, lvl)], bytes, by rw [hes, List.append_assoc], start.between, start.state,
    start.counted, hcarries, hpos, hmax, hxor, hlenAfter, hstored, htime, hpre⟩

/-! ## When `ready` rises, in terms of the stored bytes -/

/-- The exclusive-or is 0 exactly when the last byte is that of the bytes before it. -/
theorem packetXor_eq_zero_iff {d : Decoder} (h : 1 ≤ d.len.toNat) : packetXor d = 0 ↔
    bufRead d (d.len.toNat - 1) = (List.range (d.len.toNat - 1)).foldl (fun x i => x ^^^ bufRead d i) 0 := by
  obtain ⟨n, hn⟩ := Nat.exists_eq_add_of_le' h
  rw [packetXor, hn, List.range_succ, List.foldl_concat, Nat.add_sub_cancel, eq_comm (a := bufRead d n)]
  exact BitVec.xor_eq_zero_iff

/-- Settles O54: an EDGE with `ready` low leaves it high exactly when it completes a packet, and the running exclusive-or is
that of the stored bytes. -/
theorem readyRisesExactlyOnAValidChecksum : Obligations.ReadyRisesExactlyOnAValidChecksum := by
  intro s now lvl hinv hlow
  have rises : (edgeTransition s.params now (bit lvl) s.dec).1.ready = true ↔
      ClosesBit s now true ∧ s.dec.state = .waitEndBit ∧ packetXor s.dec = 0 := by
    rw [ready_edgeTransition_iff, hlow, completesPacket_iff, ← hinv.checksum]
    simp
  refine ⟨_, exec_edge now lvl s, rises, rises.trans (and_congr_right fun _ => and_congr_right fun hs => ?_)⟩
  exact packetXor_eq_zero_iff (hinv.control.endBitAfterByte hs).2

theorem bit_eq_decide (lvl : BitVec 1) : bit lvl = decide (lvl = 1) := by
  rw [Bool.eq_iff_iff, bit_eq_true_iff, decide_eq_true_iff]

/-- Settles O49: neither EDGE reads a level, and whether `ready` rises does not turn on one. -/
theorem levelInfluencesOnlyLevel : Obligations.LevelInfluencesOnlyLevel := by
  intro s now lvl lvl' b
  refine ⟨_, exec_edge now lvl s, ?_⟩
  rw [EdgeGives, exec_edge]
  have frame := edgeTransition_frame s.params now (bit lvl') { s.dec with level := b }
  have same : (edgeTransition s.params now (bit lvl') { s.dec with level := b }).1
      = { (edgeTransition s.params now (bit lvl) s.dec).1 with level := lvl' = 1 } := by
    refine eq_of_unmarked_eq (unmarked_edgeTransition rfl _ _) ?_ ?_
    · exact frame.level.trans (bit_eq_decide lvl')
    · rw [Bool.eq_iff_iff, ready_edgeTransition_iff, ← completesPacket_unmarked]
      exact ((ready_edgeTransition_iff ..).trans (or_congr_right (completesPacket_unmarked ..).symm)).symm
  rw [same]

/-! ## The classifier -/

/-- Settles O38: the bands exclude each other, since `P_SPLIT` lies between the two bounds. -/
theorem classifyFollowsTheBands : Obligations.ClassifyFollowsTheBands := by
  intro P d hwf
  obtain ⟨hone, hzero, -⟩ := P.wf_iff.1 hwf
  unfold classify
  split
  next hinOne => simp; omega
  next hnotOne =>
    split
    next hinZero => simp; omega
    next hnotZero => simp; omega

/-- Settles O39: the bands at 52, 80 and 10000. -/
theorem classifyAtTheDefaults : Obligations.ClassifyAtTheDefaults := by
  intro d
  obtain ⟨one, zero, invalid⟩ := classifyFollowsTheBands Params.default d (by decide)
  refine ⟨fun h => invalid.2 (.inl ?_), fun h h' => one.2 ⟨h, ?_⟩, fun h h' => zero.2 ⟨h, h'⟩,
    fun h => invalid.2 (.inr h)⟩
  · exact Nat.lt_succ_of_le h
  · exact Nat.lt_succ_of_le h'

/-! ## What an EDGE gives in each of its cases -/

section
variable {s : State} {now : Word} {lvl : BitVec 1} {t : Transition}

theorem edgeGives_of_effect (effect : EdgeEffect s.params now (decide (lvl = 1)) s.dec t) :
    EdgeGives s now lvl t.1 := by
  rw [EdgeGives, exec_edge, bit_eq_decide, edgeTransition_eq_of_effect effect]

/-- A closed bit does to the decoder what the bit's case says. -/
theorem edgeGives_of_closesBit {b : Bool} (closes : ClosesBit s now b)
    (effect : BitEffect s.params b now (bitReady s now lvl) t) : EdgeGives s now lvl t.1 := by
  obtain ⟨hp, hh, he, hc⟩ := closes
  exact edgeGives_of_effect (.bit (classOfBit b) hp hc hh he (by rwa [classOfBit_beq_one]))

end

/-- Settles O40: an unprimed decoder has one case only. -/
theorem firstEdgeOnlyPrimes : Obligations.FirstEdgeOnlyPrimes :=
  fun _ _ _ hp => edgeGives_of_effect (.primes hp)

/-- Settles O41: the interval discards whatever was in progress. -/
theorem invalidIntervalDiscards : Obligations.InvalidIntervalDiscards :=
  fun _ _ _ hp hc => edgeGives_of_effect (.invalid hp hc)

/-- Settles O42: the half-bit waits for its partner. -/
theorem firstHalfWaits : Obligations.FirstHalfWaits :=
  fun _ _ _ c hp hh hc => edgeGives_of_effect (.firstHalf c hp hc hh)

/-- Settles O43: the packet is discarded, and the policy says which half stays. -/
theorem mismatchedHalfDiscards : Obligations.MismatchedHalfDiscards :=
  fun _ _ _ c hp hh hc he =>
    ⟨fun hm => edgeGives_of_effect (.keptSecond c hp hc hh he hm),
      fun hm => edgeGives_of_effect (.droppedBoth c hp hc hh he hm)⟩

/-- Settles O45: a zero-bit starts a packet after enough one-bits, and restarts the count after fewer. -/
theorem preambleZeroBitStartsOrRestarts : Obligations.PreambleZeroBitStartsOrRestarts :=
  fun _ _ _ closes hs =>
    ⟨fun hmin => edgeGives_of_closesBit closes (.started (.inl hs) rfl hmin),
      fun hfew => edgeGives_of_closesBit closes (.restarted (.inl hs) rfl hfew)⟩

/-- Settles O47: the zero-bit says that more bytes follow. -/
theorem endBitZeroContinuesThePacket : Obligations.EndBitZeroContinuesThePacket :=
  fun _ _ _ closes hs => edgeGives_of_closesBit closes (.continued hs rfl)

/-- A count up to the cap fits its 8 bits. -/
theorem countPreamble_preCnt_toNat {P : Params} (hcap : P.preambleCap ≤ 255) (d : Decoder) :
    (countPreamble P d).preCnt.toNat = min (d.preCnt.toNat + 1) P.preambleCap :=
  Nat.mod_eq_of_lt (by omega)

/-- Settles O44: the one-bit is counted up to the cap. -/
theorem preambleOneBitCountsAndSaturates : Obligations.PreambleOneBitCountsAndSaturates := by
  intro s now lvl hwf closes hs
  obtain ⟨-, -, -, -, -, hcap, -⟩ := s.params.wf_iff.1 hwf
  exact ⟨_, countPreamble_preCnt_toNat hcap (bitReady s now lvl), edgeGives_of_closesBit closes (.counted (.inl hs) rfl)⟩

/-- The cap is at least 1, so an end bit that counts is counted. -/
theorem preCntAfterEndBit_of_wf {P : Params} (hwf : P.wf = true) :
    preCntAfterEndBit P = if P.endBitInPreamble then 1 else 0 := by
  obtain ⟨-, -, -, hmin, hcap, -⟩ := P.wf_iff.1 hwf
  rw [preCntAfterEndBit, Nat.min_eq_left (hmin.trans hcap)]
  rfl

/-- Settles O48: the running exclusive-or says which. -/
theorem endBitOnePublishesOrDrops : Obligations.EndBitOnePublishesOrDrops := by
  intro s now lvl n hwf closes hs hn
  rw [← preCntAfterEndBit_of_wf hwf] at hn
  subst hn
  exact ⟨fun hx => edgeGives_of_closesBit closes (.published hs rfl hx),
    fun hx => edgeGives_of_closesBit closes (.dropped hs rfl hx)⟩

theorem shiftIn_eq_setWidth_concat (b : Bool) (d : Decoder) : shiftIn b d = (d.curByte.concat b).setWidth 8 := by
  apply BitVec.eq_of_getLsbD_eq
  intro i hi
  rw [getLsbD_shiftIn, BitVec.getLsbD_setWidth, BitVec.getLsbD_concat]

/-- The byte is doubled and the bit added, modulo 256 (44_bitstream_decoder.md R137). -/
theorem toNat_shiftIn (b : Bool) (d : Decoder) :
    (shiftIn b d).toNat = (2 * d.curByte.toNat + b.toNat) % 256 := by
  rw [shiftIn_eq_setWidth_concat, BitVec.toNat_setWidth, BitVec.toNat_concat, Nat.mul_comm]

/-- Settles O46: the bit is shifted in, and the eighth overflows the buffer or stores the byte at index `len`. -/
theorem dataBitShiftsAndStores : Obligations.DataBitShiftsAndStores := by
  intro s now lvl b byte closes hs hbyte
  obtain rfl : byte = shiftIn b (bitReady s now lvl) := BitVec.eq_of_toNat_eq (hbyte.trans (toNat_shiftIn b _).symm)
  refine ⟨fun hc => edgeGives_of_closesBit closes (.shifted hs hc),
    fun hc hl => edgeGives_of_closesBit closes (.overflowed hs (congrArg BitVec.toNat hc) hl.ge),
    fun hc hl hbuf => ⟨_, edgeGives_of_closesBit closes (.stored hs (congrArg BitVec.toNat hc) hl), fun i => ?_⟩⟩
  exact Memory.read_write s.dec.buf _ i _ hbuf

/-! ## Steps without a command -/

/-- Settles O7: both events accept no command and begin with an empty response port. -/
theorem withoutACommandTheBlockStaysParked : Obligations.WithoutACommandTheBlockStaysParked := by
  refine fun s hwf => ⟨fun h => ?_, fun a rest h hs => ?_⟩
  · simp [step_of_wf s hwf, fetch, h, State.beginEvent]
  · simp [step_of_wf s hwf, fetch, h, hs, State.beginEvent]

/-! ## The response of READ_PACKET -/

section
variable (d : Decoder)

theorem packetStatusWord_len : ((packetStatusWord d).extractLsb' 0 8).toNat = d.len.toNat := by
  have field : (packetStatusWord d).extractLsb' 0 8 = d.len.setWidth 8 := by
    ext i hi
    interval_cases i <;> simp [packetStatusWord, zext32]
  rw [field, BitVec.toNat_setWidth_of_le (by decide)]

theorem packetStatusWord_pktPre : (packetStatusWord d).extractLsb' 8 8 = d.pktPre := by
  ext i hi
  interval_cases i <;> simp [packetStatusWord, zext32]

theorem packetStatusWord_ready : (packetStatusWord d).getLsbD 16 = d.ready := by
  simp [packetStatusWord, zext32]

theorem packetStatusWord_state : (packetStatusWord d).extractLsb' 24 2 = d.state.code := by
  ext i hi
  interval_cases i <;> simp [packetStatusWord, zext32]

theorem packetStatusWord_level : (packetStatusWord d).getLsbD 28 = d.level := by
  simp [packetStatusWord, zext32]

/-- Every bit outside the five fields is 0. -/
theorem packetStatusWord_elsewhere : packetStatusWord d &&& 0xECFE0000 = 0 := by
  ext i hi
  interval_cases i <;> simp [packetStatusWord, zext32]

end

theorem extractLsb'_wordOfBytes (byte : Nat → Byte) {i : Nat} (hi : i < 4) :
    (wordOfBytes (byte 3) (byte 2) (byte 1) (byte 0)).extractLsb' (8 * i) 8 = byte i := by
  rw [← zext32_word (wordOfBytes ..), wordOfBytes, ← symbolAt]
  have highest : symbolAt (zext32 (byte 3)) 0 = byte 3 := extractLsb'_zext32 (by decide) _
  interval_cases i <;> simp [symbolAt_append_zero, symbolAt_append_succ, highest]

/-- Settles O32: each field of the status word, and each byte at its place. -/
theorem readPacketAnswersTheSnapshot : Obligations.ReadPacketAnswersTheSnapshot := by
  refine ⟨encodedAs_of_decodeFields fun _ _ _ => rfl, fun s => ⟨packetResponse s.params s.dec, rfl, rfl,
    packetStatusWord_len s.dec, packetStatusWord_pktPre s.dec, packetStatusWord_ready s.dec, ?_,
    packetStatusWord_level s.dec, packetStatusWord_elsewhere s.dec, rfl, fun i hi => ?_, fun i hlow hi => ?_⟩⟩
  · refine (congrArg BitVec.toNat (packetStatusWord_state s.dec)).trans ?_
    cases s.dec.state <;> rfl
  · exact extractLsb'_wordOfBytes (packetByte s.params s.dec) hi
  · obtain ⟨j, rfl⟩ := Nat.exists_eq_add_of_le hlow
    rw [Nat.add_sub_cancel_left, Nat.add_comm]
    exact extractLsb'_wordOfBytes (fun j => packetByte s.params s.dec (j + 4)) (by omega)

/-- Settles O34: the response is READ_PACKET's, and the decoder's `ready` is cleared after it. -/
theorem readClearAnswersTheSnapshotAndClearsReady : Obligations.ReadClearAnswersTheSnapshotAndClearsReady :=
  ⟨encodedAs_of_decodeFields fun _ _ _ => rfl, fun s => ⟨packetResponse s.params s.dec, rfl, rfl⟩⟩

/-- Settles O35: CLEAR_READY answers nothing and clears the one flag. -/
theorem clearReadyClearsReadyOnly : Obligations.ClearReadyClearsReadyOnly :=
  ⟨fun _ => rfl, encodedAs_of_decodeFields fun _ _ _ => rfl⟩

end Sys2Proof.Machine

/-! Proofs about 60_exceptions.md: the cause that an EDGE takes, and the condition of each cause. -/

namespace Sys2Proof.Machine

/-! ## The cause of a completed bit -/

/-- A completed bit takes E3, E4 or no cause: E3 in `WaitData` only, E4 in `WaitEndBit` only (60_exceptions.md R174). -/
theorem bitEffect_cause {P : Params} {b : Bool} {now : Word} {d : Decoder} {t : Transition}
    (effect : BitEffect P b now d t) :
    (t.2 = some .e3 ↔ d.state = .waitData ∧ d.bitCnt = 7 ∧ P.maxLen ≤ d.len.toNat)
      ∧ (t.2 = some .e4 ↔ d.state = .waitEndBit ∧ d.xorSum ≠ 0 ∧ b = true)
      ∧ (t.2 = none ∨ t.2 = some .e3 ∨ t.2 = some .e4) := by
  cases effect with
  | counted hs | started hs | restarted hs => rcases hs with hs | hs <;> simp [hs]
  | shifted hs hc =>
    have notLast : ¬ d.bitCnt = 7#3 := fun h => absurd hc (by simp [h])
    simp [hs, notLast]
  | overflowed hs hc hl =>
    have last : d.bitCnt = 7 := BitVec.eq_of_toNat_eq hc
    simp [hs, last, hl]
  | stored hs _ hl => simp [hs, hl]
  | continued hs hb => simp [hs, hb]
  | published hs _ hx => simp [hs, hx]
  | dropped hs hb hx => simpa [hs, hb] using hx

/-! ## The cause of an EDGE -/

/-- A waiting half-bit and a valid interval close a bit when their classes agree, and the class says which bit
(44_bitstream_decoder.md R130). -/
theorem closesBit_iff_of_valid {s : State} {now : Word} {c : HalfClass} (hp : s.dec.primed = true)
    (hh : s.dec.halfPending = true) (hc : classify s.params (measured s now) = .valid c) (b : Bool) :
    ClosesBit s now b ↔ s.dec.halfClass = c ∧ (c == .one) = b := by
  have class_iff : c = classOfBit b ↔ (c == .one) = b := by cases b <;> cases c <;> decide
  simp only [ClosesBit, hp, hh, hc, true_and, IntervalClass.valid.injEq, ← class_iff]
  exact and_congr_left fun h => by rw [h]

/-- Settles O50: each case of an EDGE has one label, and the conditions of the cases exclude each other. -/
theorem edgeTakesEachCauseUnderItsCondition : Obligations.EdgeTakesEachCauseUnderItsCondition := by
  intro s now lvl
  refine ⟨fun hp => congrArg Prod.snd (edgeTransition_eq_of_effect (.primes hp)), fun hp => ⟨_, rfl, ?_⟩⟩
  have effect := edgeTransition_effect s.params now (lvl = 1) s.dec
  generalize edgeTransition s.params now (lvl = 1) s.dec = t at effect ⊢
  have interval : classify s.params (measured s now) = classify s.params (sub32 now s.dec.lastT) := rfl
  cases effect with
  | primes unprimed => simp [hp] at unprimed
  | invalid _ hc => simp [ClosesBit, interval, hc]
  | firstHalf c _ hc hh => simp [ClosesBit, interval, hc, hh]
  | keptSecond c _ hc hh he | droppedBoth c _ hc hh he =>
    simp [closesBit_iff_of_valid hp hh (interval.trans hc), interval, hc, hh, he]
  | bit c _ hc hh he completed =>
    obtain ⟨overflow, checksum, only⟩ := bitEffect_cause completed
    have other {cause : Cause} (h₃ : cause ≠ .e3) (h₄ : cause ≠ .e4) : t.2 ≠ some cause := by
      rcases only with h | h | h <;> simp [h, h₃.symm, h₄.symm]
    simp [closesBit_iff_of_valid hp hh (interval.trans hc), interval, hc, he, overflow, checksum, other]

end Sys2Proof.Machine

/-! Proofs about 70_reset_and_hazards.md: READ_PACKET after reset, the first EDGE at which `ready` can rise, and how long
a delivered packet stays. Both bounds count the EDGEs that a preamble takes. -/

namespace Sys2Proof.Machine

/-! ## READ_PACKET after reset -/

/-- A packet without bytes reads as zeros (44_bitstream_decoder.md R143). -/
theorem packetByte_of_len_eq_zero (P : Params) {d : Decoder} (h : d.len = 0) (i : Nat) : packetByte P d i = 0 := by
  simp [packetByte, h]

/-- Settles O33: `len` is 0, so every byte reads as 0, and so does each field of the status word. -/
theorem readPacketAfterResetAnswersZero : Obligations.ReadPacketAfterResetAnswersZero := by
  intro P
  have response : packetResponse P Decoder.reset = ⟨.ok, 0, 0, 0, 0⟩ := by
    simp only [packetResponse, packetByte_of_len_eq_zero P (d := Decoder.reset) rfl]
    rfl
  exact congrArg (fun r => Host.Outcome.next { State.resetWith P with response := some r }) response

/-! ## The EDGEs that a preamble takes -/

/-- The EDGEs that a preamble count stands for: two a counted one-bit, one for the half-bit that waits, and the one that
primed the decoder. -/
def preambleEdges (d : Decoder) : Nat := 2 * d.preCnt.toNat + d.halfPending.toNat + d.primed.toNat

theorem preCntAfterEndBit_le_one (P : Params) : (preCntAfterEndBit P).toNat ≤ 1 := by
  unfold preCntAfterEndBit
  split
  · exact (Nat.mod_le _ _).trans (Nat.min_le_left _ _)
  · exact Nat.zero_le _

/-- A bit counts for one at most, the end bit of the packet before included. -/
theorem bitEffect_preCnt_le {P : Params} {b : Bool} {now : Word} {d : Decoder} {t : Transition}
    (effect : BitEffect P b now d t) : t.1.preCnt.toNat ≤ d.preCnt.toNat + 1 := by
  cases effect with
  | counted => exact (Nat.mod_le _ _).trans (Nat.min_le_left _ _)
  | started | restarted | overflowed => exact Nat.zero_le _
  | shifted | stored | continued => exact Nat.le_succ _
  | published | dropped => exact (preCntAfterEndBit_le_one P).trans (Nat.le_add_left _ _)

/-- A half-bit that comes to wait, or a waiting one that becomes a counted bit, is one EDGE more. -/
theorem preambleEdges_le_succ {d e : Decoder} (hprimed : e.primed = d.primed)
    (h : 2 * e.preCnt.toNat + e.halfPending.toNat ≤ 2 * d.preCnt.toNat + d.halfPending.toNat + 1) :
    preambleEdges e ≤ preambleEdges d + 1 := by
  rw [preambleEdges, preambleEdges, hprimed]
  omega

theorem preambleEdges_edgeTransition_le (P : Params) (now : Word) (lvl : Bool) (d : Decoder) :
    preambleEdges (edgeTransition P now lvl d).1 ≤ preambleEdges d + 1 := by
  have effect := edgeTransition_effect P now lvl d
  generalize edgeTransition P now lvl d = t at effect ⊢
  cases effect with
  | primes hp => simp [preambleEdges, hp]
  | invalid | droppedBoth => exact preambleEdges_le_succ rfl (Nat.zero_le _)
  | firstHalf => exact preambleEdges_le_succ rfl (Nat.succ_le_succ (Nat.le_add_right _ _))
  | keptSecond => exact preambleEdges_le_succ rfl (Nat.le_add_left _ _)
  | bit c _ _ hh _ completed =>
    have frame := bitEffect_frame completed
    have hcount : t.1.preCnt.toNat ≤ d.preCnt.toNat + 1 := (bitEffect_preCnt_le completed :)
    refine preambleEdges_le_succ frame.primed ?_
    rw [frame.halfPending rfl, hh, Bool.toNat_false, Bool.toNat_true]
    omega

theorem preambleEdges_afterEdges_le (s : State) (es : List (Word × BitVec 1)) :
    preambleEdges (afterEdges s es).dec ≤ preambleEdges s.dec + es.length := by
  induction es using List.reverseRecOn with
  | nil => exact Nat.le_refl _
  | append_singleton es e ih =>
    rw [afterEdges_concat_dec, List.length_append, List.length_singleton, ← Nat.add_assoc]
    exact (preambleEdges_edgeTransition_le ..).trans (Nat.succ_le_succ ih)

/-- A preamble that qualifies took two EDGEs for each of its one-bits, after the one that primed the decoder. -/
theorem le_preambleEdges_of_mayStart {s : State} {before : List (Word × BitVec 1)} (start : MayStart s before) :
    2 * s.params.preambleMin + 1 ≤ preambleEdges (afterEdges s before).dec := by
  obtain ⟨⟨hprimed, hhalf⟩, -, hcounted⟩ := start
  simpa [preambleEdges, hprimed, hhalf] using hcounted

/-! ## The first rise of `ready` -/

theorem length_intervals (t : Word) (es : List (Word × BitVec 1)) : (intervals t es).length = es.length := by
  induction es generalizing t with
  | nil => rfl
  | cons e es ih => exact congrArg (· + 1) (ih e.1)

/-- Two half-bits a bit, and one EDGE a half-bit. -/
theorem length_of_carries {s : State} {es : List (Word × BitVec 1)} {bits : List Bool} (h : Carries s es bits) :
    es.length = 2 * bits.length := by
  have hlen := congrArg List.length h
  rw [List.length_map, length_intervals, halvesOfBits, List.length_flatMap] at hlen
  simpa [Nat.mul_comm] using hlen

/-- A rise of `ready` at one EDGE, as the run of that command alone. -/
theorem completesPacket_of_edge {s : State} {now : Word} {lvl : BitVec 1} (hlow : s.dec.ready = false)
    (hhigh : (after (.edge now lvl) s).dec.ready = true) : CompletesPacket s.params now s.dec :=
  completesPacket_of_rise (cmds := []) hlow hhigh

/-- Settles O58: the packet's own EDGEs carry its start bit, its bytes and their end bits; the EDGEs before them carried
the preamble that a start bit needs. -/
theorem readyRisesNoEarlierThanTheRuleSays : Obligations.ReadyRisesNoEarlierThanTheRuleSays := by
  intro P es e hwf hlow hhigh
  have hinv := invariantHoldsAfterReset P hwf
  rw [afterEdges_append, afterEdges_cons, afterEdges_nil] at hhigh
  have rises := completesPacket_of_edge hlow hhigh
  rw [afterEdges_params] at rises
  obtain ⟨before, packet, bytes, hes, start, hlen, hcarries⟩ := carries_of_completesPacket
    (framed_of_waitPreamble hinv rfl rfl es) rises
  have hpos := ((afterEdges_blockInv hinv es).control.endBitAfterByte rises.endBit).2
  have hkept : (afterEdges (State.resetWith P) (es ++ [e])).dec.len.toNat = bytes.length := by
    rw [hlen, afterEdges_concat_dec, edgeTransition_of_completesPacket rises]
    rfl
  have hpacket : (packet ++ [e]).length = 2 * (0 + 1 + 9 * bytes.length) := by
    rw [length_of_carries hcarries, length_bitsOfPacket]
  have hbefore : 2 * P.preambleMin + 1 ≤ before.length := by
    have hreset : preambleEdges (State.resetWith P).dec = 0 := rfl
    have hcount := preambleEdges_afterEdges_le (State.resetWith P) before
    rw [hreset, Nat.zero_add] at hcount
    exact (le_preambleEdges_of_mayStart start).trans hcount
  have htotal : (es ++ [e]).length = before.length + (packet ++ [e]).length := by
    rw [hes, List.append_assoc, List.length_append]
  rw [hkept]
  omega

/-! ## The overwrite window -/

/-- What the window keeps: the decoder state, the packet and its registers (70_reset_and_hazards.md R196). -/
def packetRegisters (d : Decoder) : DecState × Memory × BitVec 4 × Word × BitVec 8 × Bool :=
  (d.state, d.buf, d.len, d.pktTime, d.pktPre, d.ready)

/-- Only a start bit ends `WaitPreamble`, after a preamble that qualifies (44_bitstream_decoder.md R135, R136). -/
theorem bitEffect_packetRegisters {P : Params} {b : Bool} {now : Word} {d : Decoder} {t : Transition}
    (effect : BitEffect P b now d t) (hs : d.state = .waitPreamble) (hfew : d.preCnt.toNat < P.preambleMin) :
    packetRegisters t.1 = packetRegisters d := by
  cases effect with
  | counted | restarted => rfl
  | started _ _ hmin => omega
  | shifted hd | overflowed hd | stored hd | continued hd | published hd | dropped hd => simp [hs] at hd

/-- The second half of a start bit comes after two EDGEs a one-bit of the preamble and one for its first half. -/
theorem edgeTransition_packetRegisters {P : Params} (now : Word) (lvl : Bool) {d : Decoder}
    (hs : d.state = .waitPreamble) (hfew : preambleEdges d < 2 * (P.preambleMin + 1)) :
    packetRegisters (edgeTransition P now lvl d).1 = packetRegisters d := by
  have effect := edgeTransition_effect P now lvl d
  generalize edgeTransition P now lvl d = t at effect ⊢
  cases effect with
  | primes | firstHalf => rfl
  | invalid | keptSecond | droppedBoth => simp [packetRegisters, hs]
  | bit c hp _ hh _ completed =>
    have hcnt : d.preCnt.toNat < P.preambleMin := by
      simp only [preambleEdges, hp, hh, Bool.toNat_true] at hfew
      omega
    exact (bitEffect_packetRegisters completed hs hcnt :)

theorem afterEdges_packetRegisters {s : State} {es : List (Word × BitVec 1)} (hs : s.dec.state = .waitPreamble)
    (hfew : preambleEdges s.dec + es.length ≤ 2 * (s.params.preambleMin + 1)) :
    packetRegisters (afterEdges s es).dec = packetRegisters s.dec := by
  induction es using List.reverseRecOn with
  | nil => rfl
  | append_singleton es e ih =>
    rw [List.length_append, List.length_singleton] at hfew
    have kept := ih (by omega)
    have hstate : (afterEdges s es).dec.state = .waitPreamble := (congrArg Prod.fst kept).trans hs
    have hcount := preambleEdges_afterEdges_le s es
    rw [afterEdges_concat_dec, edgeTransition_packetRegisters e.1 (bit e.2) hstate (by omega), kept]

/-- After the last EDGE of a packet no half-bit waits, and the end bit is the only bit that may count. -/
theorem preambleEdges_of_completesPacket {P : Params} {now : Word} {d : Decoder} (h : CompletesPacket P now d)
    (hwf : P.wf = true) (lvl : Bool) :
    preambleEdges (edgeTransition P now lvl d).1 = if P.endBitInPreamble then 3 else 1 := by
  rw [edgeTransition_of_completesPacket h]
  simp only [preambleEdges, leavePacket_preCnt, leavePacket_halfPending, leavePacket_primed, publishPacket_halfPending,
    publishPacket_primed, recordEdge_primed, preCntAfterEndBit_of_wf hwf, h.primed]
  split <;> rfl

/-- Settles O59: the window is shorter than the EDGEs of the next preamble and start bit. -/
theorem packetStaysForTheOverwriteWindow : Obligations.PacketStaysForTheOverwriteWindow := by
  intro s e es hwf hlow hhigh hshort
  have rises := completesPacket_of_edge hlow hhigh
  have hcount := preambleEdges_of_completesPacket rises hwf (bit e.2)
  have hstate : (after (.edge e.1 e.2) s).dec.state = .waitPreamble := by
    rw [after_edge, edgeTransition_of_completesPacket rises]
    rfl
  have hfew : preambleEdges (after (.edge e.1 e.2) s).dec + es.length ≤ 2 * (s.params.preambleMin + 1) := by
    rw [after_edge, hcount]
    by_cases hend : s.params.endBitInPreamble
    · rw [if_pos hend] at hshort ⊢
      omega
    · rw [if_neg hend] at hshort ⊢
      omega
  have kept := afterEdges_packetRegisters hstate hfew
  simp only [packetRegisters, Prod.mk.injEq] at kept
  obtain ⟨hs, hbuf, hlen, htime, hpre, hready⟩ := kept
  exact ⟨hs.trans hstate, hbuf, hlen, htime, hpre, hready.trans hhigh⟩

end Sys2Proof.Machine
